-- ==== Sys2Proof/Word.lean ====
section
/-! DEFINITION. The word types of the block (spec/00_scope.md R7, R8). -/

namespace Sys2Proof

/-- A host-visible register value: every register is 32 bits wide (10_state.md R23). -/
abbrev Word := BitVec 32

/-- "A *byte* is an unsigned 8-bit value 0..255" (00_scope.md R7). -/
abbrev Byte := BitVec 8

/-- A host byte address: the block's one address space has 18 bits (20_memory.md R60). -/
abbrev Addr := BitVec 18

end Sys2Proof
end

