-- ==== Sys2Proof/Syntax.lean ====
section
/-! DEFINITION. What the block is asked to do: its operations (30_encoding.md R81), the accesses the
host makes (20_memory.md R61) and the answers the link gives (00_scope.md R11). -/

namespace Sys2Proof

/-- The ten operations, one constructor per row of spec/opcode_table.json (30_encoding.md R81).
No constructor has a field: "there are ... no immediates: every operand is a register" (R80). -/
inductive Instr where
  | nop
  | crc
  | swap
  | encode
  | decode
  | bulkWrite
  | bulkRead
  | send
  | recv
  | guard
  deriving DecidableEq, Repr

/-- The width n of a host access, n ∈ {1, 2, 4} bytes (20_memory.md R61). -/
inductive Width where
  | byte
  | half
  | word
  deriving DecidableEq, Repr

/-- One host access: `MemRead(a, n)` or `MemWrite(a, n, v)` (20_memory.md R61). -/
inductive HostAccess where
  | read (a : Addr) (n : Width)
  | write (a : Addr) (n : Width) (v : Word)
  deriving DecidableEq, Repr

/-- The three packet buffers (10_state.md R45). -/
inductive Buf where
  | txbuf
  | rxbuf
  | rxpkt
  deriving DecidableEq, Repr

/-- The named registers of the register map (10_state.md R23). -/
inductive Reg where
  | op
  | status
  | flags
  | sticky
  | config
  | timeout
  | txCmd
  | txPlen
  | xferLen
  | guardW
  | rxCount
  | resultCount
  | txWireLen
  | rxLen
  | rxCmd
  | rxCrc
  | crcResult
  | guardOut
  | linkErr
  | chunks
  | param0
  | param1
  deriving DecidableEq, Repr

/-- The link's answer to `LinkWrite`: `Ok(k)`, the first k bytes were sent, or `Err(e)`
(00_scope.md R11). -/
inductive WriteAnswer where
  | ok (k : Nat)
  | err (e : Word)
  deriving DecidableEq, Repr, Inhabited

/-- The link's answer to `LinkRead`: `Ok(s)`, the bytes received, or `Err(e)` (00_scope.md R11). -/
inductive ReadAnswer where
  | ok (s : List Byte)
  | err (e : Word)
  deriving DecidableEq, Repr, Inhabited

/-- One answer of the link, `W:…` or `R:…` in the notation of 95_test_vectors.md. -/
inductive LinkAnswer where
  | write (a : WriteAnswer)
  | read (a : ReadAnswer)
  deriving DecidableEq, Repr

/-- One link call as the link saw it: endpoint, bytes offered or count asked, the timeout value
passed, and the answer (`none`: a reset discarded it, 70_reset_and_hazards.md R202). The 8 bits of an
endpoint are log entry 6. -/
inductive LinkEvent where
  | write (ep : Byte) (offered : List Byte) (timeout : Word) (answer : Option WriteAnswer)
  | read (ep : Byte) (asked : Nat) (timeout : Word) (answer : Option ReadAnswer)
  deriving DecidableEq, Repr

/-- Whose step comes next (10_state.md R20: "host steps and engine steps interleave in any order";
70_reset_and_hazards.md R200, R202 for the reset input). `resetInCall` is a reset that falls while
the engine's next link call is in progress. -/
inductive Turn where
  | engine
  | host (a : HostAccess)
  | reset
  | resetInCall
  deriving DecidableEq, Repr

end Sys2Proof
end

