-- ==== Sys2Proof/Config.lean ====
section
/-! DEFINITION. The implementation parameters of 00_scope.md R6 as one record, their default values,
and the free values: constants without a body that stand for what the spec leaves unspecified. -/

namespace Sys2Proof

/-- "Every literal is therefore a named parameter whose default is the value the source states ...
and a model takes the parameters as a configuration record" (00_scope.md R6). -/
structure Config where
  /-- HDR_LEN: header bytes. -/
  hdrLen : Nat
  /-- MAX_PACKET: largest declared `length`. -/
  maxPacket : Nat
  /-- MAX_PAYLOAD: largest payload. -/
  maxPayload : Nat
  /-- BUF_SIZE: bytes in each packet buffer. -/
  bufSize : Nat
  /-- RX_READ_LEN: bytes requested by a packet receive. -/
  rxReadLen : Nat
  /-- CHUNK_MAX: largest byte count of one link call. -/
  chunkMax : Nat
  /-- M512: the modulus the device firmware fails at. -/
  m512 : Nat
  /-- OFFSET_LEN: bytes of the running offset in an upload data packet. -/
  offsetLen : Nat
  /-- GUARD_OVERHEAD: HDR_LEN + OFFSET_LEN. -/
  guardOverhead : Nat
  /-- GUARD_MAX_W: largest upload chunk. -/
  guardMaxW : Nat
  /-- GUARD_SHRINK: bytes removed from a chunk that would hit a 512 multiple. -/
  guardShrink : Nat
  /-- CRC_POLY: generator polynomial, normal form. -/
  crcPoly : BitVec 16
  /-- CRC_REFLECT: input and output reflected. -/
  crcReflect : Bool
  /-- CRC_INIT: initial register value. -/
  crcInit : BitVec 16
  /-- CRC_XOROUT: final XOR. -/
  crcXorout : BitVec 16
  /-- CMD_SUCCESS: command code of the acknowledgement packet. -/
  cmdSuccess : Word
  /-- CMD_FILE_DATA: command code recognised early on receive. -/
  cmdFileData : Word
  /-- EP_OUT: bulk-out endpoint identifier. Its width of 8 bits is a DESIGN CHOICE, log entry 6: the
  spec states none. -/
  epOut : Byte
  /-- EP_IN: bulk-in endpoint identifier. Its width of 8 bits is a DESIGN CHOICE, log entry 6. -/
  epIn : Byte
  /-- PAD_VALUE: value the encoder writes in the pad byte. -/
  padValue : Byte
  /-- TIMEOUT_RESET: reset value of the TIMEOUT register. -/
  timeoutReset : Word
  deriving DecidableEq, Repr

/-- The default column of 00_scope.md R6. The values the spec marks as general knowledge are log
entries 4 (CRC), 5 (command codes) and 6 (endpoints). -/
def Config.default : Config where
  hdrLen := 8
  maxPacket := 65535
  maxPayload := 65527
  bufSize := 65536
  rxReadLen := 65536
  chunkMax := 4096
  m512 := 512
  offsetLen := 8
  guardOverhead := 16
  guardMaxW := 65518
  guardShrink := 4
  crcPoly := 0x8005
  crcReflect := true
  crcInit := 0x0000
  crcXorout := 0x0000
  cmdSuccess := 0x00000002
  cmdFileData := 0x0000100A
  epOut := 0x01
  epIn := 0x82
  padValue := 0x00
  timeoutReset := 0

/-- What byte o of a buffer holds after the reset that made draw d: "each byte a free value"
(70_reset_and_hazards.md R201; 93_implementation_defined.md U8). FREE VALUE, log entry 2. -/
opaque Config.freeByteAt : Nat → Nat → Byte

/-- Draw d of a host read of a register while the engine runs: "returns an unspecified value"
(20_memory.md R70; 93_implementation_defined.md U7). FREE VALUE in all 32 bits, reserved ones included,
DESIGN CHOICE, log entry 3. -/
opaque Config.freeWord : Nat → Word

/-- Draw d of a host read of a buffer byte while the engine runs (20_memory.md R70). FREE VALUE, log
entry 3. -/
opaque Config.freeByte : Nat → Byte

/-- Draw d of the link's answer to a write, used where State lists no answer (10_state.md R21: "Its
answers are free"). FREE VALUE, log entry 1. -/
opaque Config.freeWriteAnswer : Nat → WriteAnswer

/-- Draw d of the link's answer to a read, used where State lists no answer (10_state.md R21). FREE
VALUE, log entry 1. -/
opaque Config.freeReadAnswer : Nat → ReadAnswer

end Sys2Proof
end

