-- ==== Sys2Proof/WellFormed.lean ====
section
/-! DEFINITION. What is well formed: instructions, operation words, configurations and buffer
places. -/

namespace Sys2Proof

/-- No operation carries an operand (30_encoding.md R80), so every term of Instr is well formed. -/
def Instr.wellFormed : Instr → Bool
  | .nop => true
  | .crc => true
  | .swap => true
  | .encode => true
  | .decode => true
  | .bulkWrite => true
  | .bulkRead => true
  | .send => true
  | .recv => true
  | .guard => true

/-- An operation word that is not reserved: MBZ (bits 31:8) is zero and OPC (bits 7:0) is at most
0x09 (30_encoding.md R80, R82). -/
abbrev OpWordLegal (w : Word) : Prop :=
  w.toNat / 256 = 0 ∧ w.toNat % 256 ≤ 9

/-- The constraints the spec itself puts on a configuration: the list under the table of
00_scope.md R6, the meaning of GUARD_OVERHEAD in that table, and "`BUF_SIZE` above 65536 is not a
legal configuration of this map" (20_memory.md R60). -/
abbrev Config.Legal (c : Config) : Prop :=
  c.maxPayload + c.hdrLen = c.maxPacket ∧
  c.maxPacket + c.maxPacket % 2 ≤ c.bufSize ∧
  c.bufSize ≤ 65536 ∧
  c.rxReadLen ≤ c.bufSize ∧
  1 ≤ c.chunkMax ∧
  c.guardOverhead = c.hdrLen + c.offsetLen ∧
  c.guardOverhead + c.guardMaxW ≤ c.maxPacket ∧
  c.guardShrink % 2 = 0 ∧
  0 < c.guardShrink ∧
  c.guardShrink < c.m512 ∧
  c.m512 % 2 = 0

/-- DEDUCED (log entry 7): what the fixed field positions imply. The header of 30_encoding.md R85 has
exactly 8 bytes; its length field has 16 bits; GUARD_OUT.REWIND has 8 bits (10_state.md R41); and
"`w − GUARD_SHRINK` is never negative" (42_boundary_guard.md R171) and offsets that are "strictly
increasing" (R174) need the last line. -/
abbrev Config.Coherent (c : Config) : Prop :=
  c.hdrLen = 8 ∧
  c.maxPacket ≤ 65535 ∧
  c.guardShrink < 256 ∧
  c.guardOverhead + c.guardShrink + 1 < c.m512

/-- A configuration the rules of the spec are about. -/
abbrev Config.WellFormed (c : Config) : Prop :=
  c.Legal ∧ c.Coherent

end Sys2Proof
end

