-- ==== Sys2Proof/Decode.lean ====
section
/-! DEFINITION. The operation word (30_encoding.md R80-R83): the decoder, total on every 32-bit word
and rejecting reserved words by name, and the encoder. -/

namespace Sys2Proof

/-- Why a word is reserved (30_encoding.md R82). -/
inductive DecodeError where
  /-- OPC in 0x0A..0xFF. -/
  | reservedOpc
  /-- A must-be-zero bit (31:8) is set. -/
  | mbzSet
  deriving DecidableEq, Repr

/-- Field OPC, bits 7:0 of an operation word (30_encoding.md R80). -/
def opcOf (w : Word) : Byte := w.extractLsb' 0 8

/-- Field MBZ, bits 31:8 of an operation word (30_encoding.md R80). -/
def mbzOf (w : Word) : BitVec 24 := w.extractLsb' 8 24

/-- The opcode map of 30_encoding.md R81. -/
def opcodeMap (opc : Nat) : Except DecodeError Instr :=
  match opc with
  | 0x00 => .ok .nop
  | 0x01 => .ok .crc
  | 0x02 => .ok .swap
  | 0x03 => .ok .encode
  | 0x04 => .ok .decode
  | 0x05 => .ok .bulkWrite
  | 0x06 => .ok .bulkRead
  | 0x07 => .ok .send
  | 0x08 => .ok .recv
  | 0x09 => .ok .guard
  | _ => .error .reservedOpc

/-- The decoder: a word with an MBZ bit set or an OPC above 0x09 is reserved (30_encoding.md R82). -/
def decode (w : Word) : Except DecodeError Instr :=
  if mbzOf w = 0 then opcodeMap (opcOf w).toNat else .error .mbzSet

/-- OPC of each operation, from the table of 30_encoding.md R81. -/
def Instr.opc : Instr → Byte
  | .nop => 0x00
  | .crc => 0x01
  | .swap => 0x02
  | .encode => 0x03
  | .decode => 0x04
  | .bulkWrite => 0x05
  | .bulkRead => 0x06
  | .send => 0x07
  | .recv => 0x08
  | .guard => 0x09

/-- The encoder: format OPWORD, MBZ zero above OPC (30_encoding.md R80). -/
def encode (i : Instr) : Word := (0 : BitVec 24) ++ i.opc

/-- The 32-bit operation word that a table word w of nbits bits stands for. The host writes the word
whole (20_memory.md R62), so there is no byte order to lay out. -/
def tableWord (nbits w : Nat) : Word := BitVec.ofNat 32 (w % 2 ^ nbits)

/-- The instruction this decoder reads from a table word, `none` where it is reserved or longer than
an operation word. -/
def decodeTableWord (nbits w : Nat) : Option Instr :=
  if w % 2 ^ nbits < 2 ^ 32 then
    match decode (tableWord nbits w) with
    | .ok i => some i
    | .error _ => none
  else none

end Sys2Proof
end

