-- ==== Sys2Proof/Machine/State.lean ====
section
/-! DEFINITION. The state of the block (10_state.md), held as plain data, and the state after reset
(70_reset_and_hazards.md R201). -/

namespace Sys2Proof.Machine

/-- The next stage of the running operation's rule (10_state.md R22, 41_bulk_transport.md R144):
`start` the first step, `chunk` a chunk step of the operation's first loop, `ackChunk` a chunk step
of RECV's acknowledgement loop. -/
inductive Stage where
  | start
  | chunk
  | ackChunk
  deriving DecidableEq, Repr

/-- The operation context `ctx = (word, stage, cursor, target)` (10_state.md R22). -/
structure Ctx where
  word : Word
  stage : Stage
  cursor : Nat
  target : Nat
  deriving DecidableEq, Repr

/-- `phase ∈ {IDLE, RUN}`, with the context held exactly while RUN (10_state.md R22). -/
inductive Engine where
  | idle
  | run (ctx : Ctx)
  deriving DecidableEq, Repr

/-- The fields of STATUS (10_state.md R27); its reserved bits have no storage. -/
structure Status where
  busy : Bool
  done : Bool
  lastOp : Byte
  err : Byte
  deriving DecidableEq, Repr

/-- What the bytes of a buffer that are not listed hold: `unwritten d`, the free values of draw d
(70_reset_and_hazards.md R201), or one byte, as RXPKT does once a validation has cleared it
(40_packet_codec.md R105). -/
inductive Fill where
  | unwritten (draw : Nat)
  | byte (b : Byte)
  deriving DecidableEq, Repr

/-- The bytes of one buffer by offset (10_state.md R45). `cells` is in canonical form
(`Memory.wf`, Machine/Ops.lean). -/
structure Memory where
  cells : List Host.Cell
  fill : Fill
  deriving DecidableEq, Repr

/-- Why a step stops with a fault. -/
inductive Fault where
  /-- Raised by a chunk call of BULK_WRITE, BULK_READ, SEND or RECV when the next listed link answer
  is outside the link contract (more bytes than offered or asked, or an answer to the other kind of
  call): "An answer outside the contract ... is not admitted: the engine has no step (stuck)"
  (10_state.md R21, 41_bulk_transport.md R143, 93_implementation_defined.md U10). Safe. -/
  | linkContract
  deriving DecidableEq, Repr

/-- Why the model gives no meaning. -/
inductive Refusal where
  /-- Raised by exec's arm of an instruction that has no meaning yet. Safe. -/
  | notModelled (mnemonic : String)
  deriving DecidableEq, Repr

/-- Everything the spec gives the block, and below the line the model's own fields: the world
outside the block as data. -/
structure State where
  /-- The implementation parameters (00_scope.md R6); no step writes them. -/
  cfg : Config
  /-- `phase` and `ctx` (10_state.md R22). -/
  engine : Engine
  /-- STATUS, offset 0x004 (10_state.md R27). -/
  status : Status
  /-- FLAGS, offset 0x008, bits 16:0 (10_state.md R25). -/
  flags : BitVec 17
  /-- STICKY, offset 0x00C, bits 18:0 (10_state.md R26). -/
  sticky : BitVec 19
  /-- CONFIG, offset 0x010, bits 8:0 (10_state.md R28). -/
  config : BitVec 9
  /-- TIMEOUT, offset 0x014 (10_state.md R29). -/
  timeout : Word
  /-- TX_CMD, offset 0x018 (10_state.md R30). -/
  txCmd : Word
  /-- TX_PLEN, offset 0x01C, bits 15:0 (10_state.md R31). -/
  txPlen : BitVec 16
  /-- XFER_LEN, offset 0x020, bits 16:0 (10_state.md R32). -/
  xferLen : BitVec 17
  /-- GUARD_W, offset 0x024, bits 15:0 (10_state.md R33). -/
  guardW : BitVec 16
  /-- RX_COUNT, offset 0x028, bits 16:0 (10_state.md R34). -/
  rxCount : BitVec 17
  /-- RESULT_COUNT, offset 0x02C, bits 16:0 (10_state.md R35). -/
  resultCount : BitVec 17
  /-- TX_WIRE_LEN, offset 0x030, bits 16:0 (10_state.md R36). -/
  txWireLen : BitVec 17
  /-- RX_LEN, offset 0x034, bits 15:0 (10_state.md R37). -/
  rxLen : BitVec 16
  /-- RX_CMD, offset 0x038 (10_state.md R38). -/
  rxCmd : Word
  /-- RX_CRC.EMBEDDED, offset 0x03C, bits 15:0 (10_state.md R39). -/
  rxCrcEmbedded : BitVec 16
  /-- RX_CRC.COMPUTED, offset 0x03C, bits 31:16 (10_state.md R39). -/
  rxCrcComputed : BitVec 16
  /-- CRC_RESULT, offset 0x040, bits 15:0 (10_state.md R40). -/
  crcResult : BitVec 16
  /-- GUARD_OUT.W_ADJ, offset 0x044, bits 15:0 (10_state.md R41). -/
  guardWAdj : BitVec 16
  /-- GUARD_OUT.REWIND, offset 0x044, bits 23:16 (10_state.md R41). -/
  guardRewind : Byte
  /-- LINK_ERR, offset 0x048 (10_state.md R42). -/
  linkErr : Word
  /-- CHUNKS, offset 0x04C (10_state.md R43). -/
  chunks : Word
  /-- TXBUF (10_state.md R45). -/
  txbuf : Memory
  /-- RXBUF (10_state.md R45). -/
  rxbuf : Memory
  /-- RXPKT (10_state.md R45). -/
  rxpkt : Memory
  /-- MODEL'S OWN: whose turns come next, oldest first (10_state.md R20); log entry 8. -/
  schedule : List Turn
  /-- MODEL'S OWN: the link's coming answers in call order (10_state.md R21); log entry 1. -/
  answers : List LinkAnswer
  /-- MODEL'S OWN: the link calls made so far, newest first; log entry 9. -/
  linkLog : List LinkEvent
  /-- MODEL'S OWN: the value the latest host read returned, `none` before the first; log entry 9. -/
  readData : Option Word
  /-- MODEL'S OWN: how many free values have been drawn; log entries 1, 2, 3. -/
  draws : Nat
  deriving DecidableEq, Repr

/-- The block after a reset (70_reset_and_hazards.md R201), with the world outside it as given. The
three buffers are three fresh draws of free values. -/
def State.afterReset (cfg : Config) (draws : Nat) (schedule : List Turn) (answers : List LinkAnswer)
    (linkLog : List LinkEvent) (readData : Option Word) : State where
  cfg := cfg
  engine := .idle
  status := { busy := false, done := false, lastOp := 0, err := 0 }
  flags := 0
  sticky := 0
  config := 0x008
  timeout := cfg.timeoutReset
  txCmd := 0
  txPlen := 0
  xferLen := 0
  guardW := 0
  rxCount := 0
  resultCount := 0
  txWireLen := 0
  rxLen := 0
  rxCmd := 0
  rxCrcEmbedded := 0
  rxCrcComputed := 0
  crcResult := 0
  guardWAdj := 0
  guardRewind := 0
  linkErr := 0
  chunks := 0
  txbuf := { cells := [], fill := .unwritten draws }
  rxbuf := { cells := [], fill := .unwritten (draws + 1) }
  rxpkt := { cells := [], fill := .unwritten (draws + 2) }
  schedule := schedule
  answers := answers
  linkLog := linkLog
  readData := readData
  draws := draws + 3

/-- The machine right after reset, with the default parameters and nothing waiting outside it. -/
def State.reset : State := State.afterReset Config.default 0 [] [] [] none

end Sys2Proof.Machine
end

