-- ==== Sys2Proof/Machine/Flags.lean ====
section
/-! DEFINITION. The status indicators: FLAGS and STICKY bits (10_state.md R25, R26), the fields of
CONFIG (R28), the word STATUS reads as (R27) and the error codes (60_exceptions.md R181). -/

namespace Sys2Proof.Machine

/-- The bits of FLAGS, which are also bits 16:0 of STICKY (10_state.md R25, R26). -/
inductive Flag where
  | m512Warn
  | crcChecked
  | crcMismatch
  | rxValid
  | earlyFileData
  | ackSent
  | ackFail
  | shortRead
  | zeroXfer
  | ioError
  | shortWrite
  | tooShort
  | badLen
  | shortPacket
  | guardHit
  | illegalOp
  | rangeErr
  deriving DecidableEq, Repr

/-- The bit number of each flag (10_state.md R25). -/
def Flag.bit : Flag → Nat
  | .m512Warn => 0
  | .crcChecked => 1
  | .crcMismatch => 2
  | .rxValid => 3
  | .earlyFileData => 4
  | .ackSent => 5
  | .ackFail => 6
  | .shortRead => 7
  | .zeroXfer => 8
  | .ioError => 9
  | .shortWrite => 10
  | .tooShort => 11
  | .badLen => 12
  | .shortPacket => 13
  | .guardHit => 14
  | .illegalOp => 15
  | .rangeErr => 16

/-- STICKY bit 17, BUSY_REJECT (10_state.md R26). -/
def busyRejectBit : Nat := 17

/-- STICKY bit 18, BAD_ACCESS (10_state.md R26). -/
def badAccessBit : Nat := 18

/-- Whether FLAGS bit F is set. -/
def State.hasFlag (s : State) (f : Flag) : Bool := s.flags.getLsbD f.bit

/-- Whether STICKY bit i is set. -/
def State.hasSticky (s : State) (i : Nat) : Bool := s.sticky.getLsbD i

/-- Sets STICKY bit i alone (10_state.md R26). -/
def State.setSticky (s : State) (i : Nat) : State :=
  { s with sticky := s.sticky ||| (1 <<< i) }

/-- "`flag F` sets bit F of FLAGS and of STICKY" (00_scope.md R12). -/
def State.flag (s : State) (f : Flag) : State :=
  { s with flags := s.flags ||| (1 <<< f.bit), sticky := s.sticky ||| (1 <<< f.bit) }

/-- `flag F` where a condition holds, nothing where it does not. -/
def State.flagIf (s : State) (c : Bool) (f : Flag) : State :=
  if c then s.flag f else s

/-- The fatal conditions an operation can raise (60_exceptions.md R181). -/
inductive ErrCode where
  | illegal
  | range
  | io
  | zero
  | tooShort
  | badLen
  | shortPacket
  | crc
  | ack
  deriving DecidableEq, Repr

/-- The code STATUS.ERR receives (60_exceptions.md R181); 0x00 NONE is the absence of an error. -/
def ErrCode.code : ErrCode → Byte
  | .illegal => 0x01
  | .range => 0x02
  | .io => 0x03
  | .zero => 0x04
  | .tooShort => 0x05
  | .badLen => 0x06
  | .shortPacket => 0x07
  | .crc => 0x08
  | .ack => 0x09

/-- The word STATUS reads as: reserved(31:24), ERR(23:16), LAST_OP(15:8), reserved(7:2), DONE(1),
BUSY(0) (10_state.md R27). -/
def Status.word (t : Status) : Word :=
  (0 : BitVec 8) ++ t.err ++ t.lastOp ++ (0 : BitVec 6) ++ BitVec.ofBool t.done ++ BitVec.ofBool t.busy

/-- CONFIG.CRC_MODE, bits 1:0: 0 WARN, 1 IGNORE, 2 STRICT (10_state.md R28). -/
def State.crcMode (s : State) : Nat := (s.config.extractLsb' 0 2).toNat

/-- CONFIG.SHORT_ACCEPT, bit 2 (10_state.md R28). -/
def State.shortAccept (s : State) : Bool := s.config.getLsbD 2

/-- CONFIG.AUTO_ACK, bit 3 (10_state.md R28). -/
def State.autoAck (s : State) : Bool := s.config.getLsbD 3

/-- CONFIG.TRACE, bits 7:4, "no effect on any operation" (10_state.md R28). -/
def State.trace (s : State) : BitVec 4 := s.config.extractLsb' 4 4

/-- CONFIG.QUIET, bit 8, "no effect on any operation" (10_state.md R28). -/
def State.quiet (s : State) : Bool := s.config.getLsbD 8

/-- What a host write of v stores in CONFIG: bits 8:0, and a CRC_MODE of 3 stores 0
("write-any-read-legal", 10_state.md R28). -/
def configStored (v : Word) : BitVec 9 :=
  let c := v.extractLsb' 0 9
  if c.extractLsb' 0 2 = 3 then c &&& 0x1FC else c

end Sys2Proof.Machine
end

