-- ==== Sys2Proof/Machine/Operands.lean ====
section
/-! DEFINITION. Byte-order helpers (00_scope.md R9), CRC-16/ANSI (40_packet_codec.md R100), the pair
swap (R102), packet fields (30_encoding.md R85-R89), the guard function (42_boundary_guard.md R171)
and the operand registers as the operations read them (30_encoding.md R84). -/

namespace Sys2Proof.Machine

/-- `be16(v) = [v[15:8], v[7:0]]` (00_scope.md R9). -/
def be16 (v : BitVec 16) : List Byte := [v.extractLsb' 8 8, v.extractLsb' 0 8]

/-- `be32(v) = [v[31:24], v[23:16], v[15:8], v[7:0]]` (00_scope.md R9). -/
def be32 (v : Word) : List Byte :=
  [v.extractLsb' 24 8, v.extractLsb' 16 8, v.extractLsb' 8 8, v.extractLsb' 0 8]

/-- `be64(v)`, "the same for eight bytes" (00_scope.md R9). -/
def be64 (v : BitVec 64) : List Byte := be32 (v.extractLsb' 32 32) ++ be32 (v.extractLsb' 0 32)

/-- `roundEven(x) = x + (x mod 2)` (00_scope.md R9). -/
def roundEven (x : Nat) : Nat := x + x % 2

/-- Byte i of a sequence, 0 beyond its end. -/
def byteAt (s : List Byte) (i : Nat) : Byte := s.getD i 0

/-- `rd_be16(B, a) = B[a]·256 + B[a+1]` (00_scope.md R9), as the 16-bit value it is. -/
def rdBe16 (s : List Byte) (a : Nat) : BitVec 16 := byteAt s a ++ byteAt s (a + 1)

/-- `rd_be32(B, a) = rd_be16(B, a)·65536 + rd_be16(B, a+2)` (00_scope.md R9). -/
def rdBe32 (s : List Byte) (a : Nat) : Word := rdBe16 s a ++ rdBe16 s (a + 2)

/-- The pair swap: bytes 2i and 2i+1 exchanged, a trailing odd byte left (40_packet_codec.md R102). -/
def pairSwap : List Byte → List Byte
  | [] => []
  | [a] => [a]
  | a :: b :: rest => b :: a :: pairSwap rest

/-- `rev16(v)` "is v with bit i moved to bit 15−i" (40_packet_codec.md R100). -/
def rev16 (v : BitVec 16) : BitVec 16 :=
  (List.range 16).foldl (fun acc i => if v.getLsbD i then acc ||| (1 <<< (15 - i)) else acc) 0

/-- One of the eight shifts of a byte, in the reflected or the normal form (40_packet_codec.md R100). -/
def crcShift (reflect : Bool) (poly c : BitVec 16) : BitVec 16 :=
  if reflect then
    if c.getLsbD 0 then (c >>> 1) ^^^ rev16 poly else c >>> 1
  else
    if c.getLsbD 15 then (c <<< 1) ^^^ poly else c <<< 1

/-- "repeat n times" of the shift (40_packet_codec.md R100). -/
def crcShifts (reflect : Bool) (poly : BitVec 16) : Nat → BitVec 16 → BitVec 16
  | 0, c => c
  | n + 1, c => crcShifts reflect poly n (crcShift reflect poly c)

/-- One byte of the CRC: it is XORed into the low byte (reflected) or the high byte (normal form) and
eight shifts follow (40_packet_codec.md R100). -/
def crcByte (reflect : Bool) (poly c : BitVec 16) (b : Byte) : BitVec 16 :=
  let x : BitVec 16 := if reflect then b.setWidth 16 else b.setWidth 16 <<< 8
  crcShifts reflect poly 8 (c ^^^ x)

/-- The CRC register after the bytes of s, before the final XOR (40_packet_codec.md R100). -/
def crcRun (p : Config) (c : BitVec 16) (s : List Byte) : BitVec 16 :=
  s.foldl (crcByte p.crcReflect p.crcPoly) c

/-- `crc16(s)` (40_packet_codec.md R100). -/
def crc16 (p : Config) (s : List Byte) : BitVec 16 := crcRun p p.crcInit s ^^^ p.crcXorout

/-- The wire form of a 32-bit `cmd`: `[c[23:16], c[31:24], c[7:0], c[15:8]]` (30_encoding.md R89,
40_packet_codec.md R106). -/
def wireCmd (c : Word) : List Byte :=
  [c.extractLsb' 16 8, c.extractLsb' 24 8, c.extractLsb' 0 8, c.extractLsb' 8 8]

/-- A packet's logical image without pad: `length`, `crc` over `cmd` and payload, `cmd`, payload
(30_encoding.md R85). -/
def packetImage (p : Config) (cmd : Word) (payload : List Byte) : List Byte :=
  be16 (BitVec.ofNat 16 (p.hdrLen + payload.length)) ++ be16 (crc16 p (be32 cmd ++ payload)) ++
    be32 cmd ++ payload

/-- `ACK_IMG`: the 8-byte packet with `cmd` = CMD_SUCCESS and no payload (41_bulk_transport.md R149). -/
def ackImage (p : Config) : List Byte :=
  be16 8 ++ be16 (crc16 p (be32 p.cmdSuccess)) ++ be32 p.cmdSuccess

/-- `ACK_WIRE = swap(ACK_IMG)` (41_bulk_transport.md R149). -/
def ackWire (p : Config) : List Byte := pairSwap (ackImage p)

/-- What `guard(w)` returns: `(w_adj, rewind, hit)` (42_boundary_guard.md R171). -/
structure GuardResult where
  wAdj : Nat
  rewind : Nat
  hit : Bool
  deriving DecidableEq, Repr

/-- `guard(w)` (42_boundary_guard.md R171). The subtraction is on natural numbers, log entry 7. -/
def guardChunk (p : Config) (w : Nat) : GuardResult :=
  if roundEven (p.guardOverhead + w) % p.m512 = 0 then
    { wAdj := w - p.guardShrink, rewind := p.guardShrink, hit := true }
  else
    { wAdj := w, rewind := 0, hit := false }

/-- Operand N of CRC, SWAP, BULK_WRITE and BULK_READ (30_encoding.md R84). -/
def State.xferCount (s : State) : Nat := s.xferLen.toNat

/-- Operand P of ENCODE and SEND (30_encoding.md R84). -/
def State.payloadLen (s : State) : Nat := s.txPlen.toNat

/-- `L <- HDR_LEN + P` (40_packet_codec.md R103). -/
def State.packetLen (s : State) : Nat := s.cfg.hdrLen + s.payloadLen

/-- `T <- roundEven(L)` (40_packet_codec.md R103). -/
def State.transmitLen (s : State) : Nat := roundEven s.packetLen

/-- Operand n of DECODE, and the received count RECV validates (30_encoding.md R84). -/
def State.rxLength (s : State) : Nat := s.rxCount.toNat

/-- Operand w of GUARD (30_encoding.md R84). -/
def State.guardInput (s : State) : Nat := s.guardW.toNat

/-- The running operation's context; an idle engine has none and stands for a fresh one. -/
def State.ctx (s : State) : Ctx :=
  match s.engine with
  | .run c => c
  | .idle => { word := 0, stage := .start, cursor := 0, target := 0 }

end Sys2Proof.Machine
end

