-- ==== Sys2Proof/Machine/Ops.lean ====
section
/-! DEFINITION. The named operations the meanings are written over: buffer memory (10_state.md R45),
the operation lifecycle (R22), errors (60_exceptions.md R180), link calls (00_scope.md R11) and the
chunk loops (41_bulk_transport.md R140, R141). -/

namespace Sys2Proof.Machine

/-- The outcome of a meaning or a step. -/
abbrev Result := Host.Outcome State Fault Refusal

/-! ### Buffer memory -/

/-- What byte o reads as where it is not listed: the ONE definition. -/
def Memory.unlisted (m : Memory) (o : Nat) : Byte :=
  match m.fill with
  | .unwritten d => Config.freeByteAt d o
  | .byte b => b

/-- One byte of a buffer, `B[o]` (00_scope.md R9). -/
def Memory.read (m : Memory) (o : Nat) : Byte := (m.cells.lookup o).getD (m.unlisted o)

/-- The bytes at offsets a..a+n−1 in order, `B[a..a+n)` (00_scope.md R9). -/
def Memory.bytes (m : Memory) (a n : Nat) : List Byte := (List.range n).map fun i => m.read (a + i)

/-- A byte sequence as cells from offset o on. -/
def numbered (o : Nat) : List Byte → List Host.Cell
  | [] => []
  | b :: rest => (o, b) :: numbered (o + 1) rest

/-- Whether a cell is listed over this fill: not where it equals what an unlisted byte is known to
read as. What an unwritten byte reads as is a free value, so over it every written byte is listed
(log entry 2). -/
def Fill.lists (f : Fill) (c : Host.Cell) : Bool :=
  match f with
  | .unwritten _ => true
  | .byte b => c.2 != b

/-- `B[o..o+|bs|) <- bs` (00_scope.md R10), in canonical form. -/
def Memory.write (m : Memory) (o : Nat) (bs : List Byte) : Memory :=
  { m with
    cells := m.cells.filter (fun c => decide (c.1 < o)) ++ (numbered o bs).filter m.fill.lists ++
      m.cells.filter (fun c => decide (o + bs.length ≤ c.1)) }

/-- A buffer that holds bs from offset 0 and zeros from there on (40_packet_codec.md R105:
"`RXPKT[0..W) <- swap(RXBUF[0..W)) ; RXPKT[W..BUF_SIZE) <- 0`"). -/
def Memory.cleared (bs : List Byte) : Memory := Memory.write { cells := [], fill := .byte 0 } 0 bs

/-- Offsets strictly rising from o on. -/
def risingFrom (o : Nat) : List Host.Cell → Bool
  | [] => true
  | c :: rest => decide (o ≤ c.1) && risingFrom (c.1 + 1) rest

/-- The canonical form: offsets strictly rising, no cell equal to what an unlisted byte is known to
read as. -/
def Memory.wf (m : Memory) : Bool := risingFrom 0 m.cells && m.cells.all m.fill.lists

/-- Every listed offset lies in a buffer of `size` bytes (10_state.md R45). -/
def Memory.within (m : Memory) (size : Nat) : Bool := m.cells.all fun c => decide (c.1 < size)

/-- The buffer of that name. -/
def State.buffer (s : State) : Buf → Memory
  | .txbuf => s.txbuf
  | .rxbuf => s.rxbuf
  | .rxpkt => s.rxpkt

/-- The state with that buffer replaced. -/
def State.setBuffer (s : State) (b : Buf) (m : Memory) : State :=
  match b with
  | .txbuf => { s with txbuf := m }
  | .rxbuf => { s with rxbuf := m }
  | .rxpkt => { s with rxpkt := m }

/-! ### The operation lifecycle and errors -/

/-- `accept(w)` (10_state.md R22). -/
def accept (w : Word) (s : State) : State :=
  { s with
    status := { busy := true, done := false, lastOp := w.extractLsb' 0 8, err := 0 }
    flags := 0
    chunks := 0
    engine := .run { word := w, stage := .start, cursor := 0, target := 0 } }

/-- `finish` (10_state.md R22). -/
def finish (s : State) : State :=
  { s with status := { s.status with busy := false, done := true }, engine := .idle }

/-- `raise Error(c)`: the code goes to STATUS.ERR and the operation ends (10_state.md R22,
60_exceptions.md R180). This block's exception entry. Its return is the next `accept`
(60_exceptions.md R187). -/
def raise (e : ErrCode) (s : State) : State :=
  finish { s with status := { s.status with err := e.code } }

/-- The end of an operation: `finish`, or `raise` where an error is given. -/
def endWith (e : Option ErrCode) (s : State) : State :=
  match e with
  | none => finish s
  | some c => raise c s

/-- `flag RANGE_ERR ; raise Error(RANGE)` (60_exceptions.md R181). -/
def rangeError (s : State) : State := raise .range (s.flag .rangeErr)

/-- The first engine step of a reserved word: `flag ILLEGAL_OP; raise Error(ILLEGAL)`
(30_encoding.md R82). -/
def illegalOp (s : State) : State := raise .illegal (s.flag .illegalOp)

/-- The block reset: every piece of state at its value of 70_reset_and_hazards.md R201, the buffers
fresh draws. The world outside (schedule, answers, calls made, last read) is not the block's. -/
def blockReset (s : State) : State :=
  State.afterReset s.cfg s.draws s.schedule s.answers s.linkLog s.readData

/-! ### Packet codec (40_packet_codec.md) -/

/-- `encodeImage()` for a payload length in range (40_packet_codec.md R103). -/
def encodeImage (s : State) : State :=
  let l := s.packetLen
  let m1 := s.txbuf.write 0 (be16 (BitVec.ofNat 16 l))
  let m2 := m1.write 4 (be32 s.txCmd)
  let m3 := m2.write 2 (be16 (crc16 s.cfg (m2.bytes 4 (l - 4))))
  let m4 := if l % 2 = 1 then m3.write l [s.cfg.padValue] else m3
  { s with txbuf := m4, txWireLen := BitVec.ofNat 17 s.transmitLen }

/-- `wireImage(T) = swap(TXBUF[0..T))` (40_packet_codec.md R104). -/
def wireImage (s : State) (t : Nat) : List Byte := pairSwap (s.txbuf.bytes 0 t)

/-- `D <- RXBUF[0] + 256·RXBUF[1]`, the declared length from the raw bytes (40_packet_codec.md R105). -/
def declaredLen (s : State) : Nat := (s.rxbuf.read 0).toNat + 256 * (s.rxbuf.read 1).toNat

/-- `W <- min(max(roundEven(D), HDR_LEN), n)`, the swap window (40_packet_codec.md R105). -/
def swapWindow (s : State) (n : Nat) : Nat :=
  min (max (roundEven (declaredLen s)) s.cfg.hdrLen) n

/-- The part of `validate` that recovers the logical image and reports the header fields
(40_packet_codec.md R105, lines 3 to 6). -/
def recoverPacket (n : Nat) (s : State) : State :=
  let img := pairSwap (s.rxbuf.bytes 0 (swapWindow s n))
  { s with
    rxpkt := Memory.cleared img
    rxLen := BitVec.ofNat 16 (declaredLen s)
    rxCmd := rdBe32 img 4
    rxCrcEmbedded := rdBe16 img 2
    rxCrcComputed := 0 }

/-- The CRC comparison of `validate`, made unless CRC_MODE is IGNORE (40_packet_codec.md R105). -/
def compareCrc (d : Nat) (s : State) : State × Option ErrCode :=
  let c := crc16 s.cfg (s.rxpkt.bytes 4 (d - 4))
  let s1 := State.flag { s with rxCrcComputed := c } .crcChecked
  if c = s1.rxCrcEmbedded then (s1.flag .rxValid, none)
  else
    let s2 := s1.flag .crcMismatch
    if s2.crcMode = 2 then (s2, some .crc) else (s2.flag .rxValid, none)

/-- `validate(n)`: the state it leaves and the error it raises, if any (40_packet_codec.md R105). -/
def validate (n : Nat) (s : State) : State × Option ErrCode :=
  if n < s.cfg.hdrLen then (s.flag .tooShort, some .tooShort)
  else
    let d := declaredLen s
    let s1 := recoverPacket n s
    if d < s.cfg.hdrLen then (s1.flag .badLen, some .badLen)
    else if n < d then
      let s2 := s1.flag .shortPacket
      if s2.shortAccept then (s2.flag .rxValid, none) else (s2, some .shortPacket)
    else if s1.crcMode = 1 then (s1.flag .rxValid, none)
    else compareCrc d s1

/-- The test of `earlyFileData(n)`, on the raw wire bytes (40_packet_codec.md R106). -/
def isEarlyFileData (n : Nat) (s : State) : Bool :=
  decide (s.cfg.hdrLen ≤ n) && decide (s.rxbuf.bytes 4 4 = wireCmd s.cfg.cmdFileData)

/-- `earlyFileData(n)`'s effect: `flag EARLY_FILE_DATA` where it is true (40_packet_codec.md R106). -/
def markEarly (n : Nat) (s : State) : State := s.flagIf (isEarlyFileData n s) .earlyFileData

/-! ### Link calls (00_scope.md R11, 41_bulk_transport.md R143) -/

/-- "`Ok(k)`, 0 ≤ k ≤ |s|, or `Err(e)`" for c bytes offered (10_state.md R21). -/
def writeWithin (c : Nat) : WriteAnswer → Bool
  | .ok k => decide (k ≤ c)
  | .err _ => true

/-- "`Ok(s)`, |s| ≤ c, or `Err(e)`" for c bytes asked (10_state.md R21). -/
def readWithin (c : Nat) : ReadAnswer → Bool
  | .ok s => decide (s.length ≤ c)
  | .err _ => true

/-- A drawn answer brought inside the contract; every answer of the contract is some draw's. -/
def clampWrite (c : Nat) : WriteAnswer → WriteAnswer
  | .ok k => .ok (k % (c + 1))
  | .err e => .err e

/-- A drawn answer brought inside the contract; every answer of the contract is some draw's. -/
def clampRead (c : Nat) : ReadAnswer → ReadAnswer
  | .ok s => .ok (s.take c)
  | .err e => .err e

/-- The bookkeeping of one link call: CHUNKS counts it (10_state.md R43), and the model's log keeps it. -/
def State.logCall (s : State) (ev : LinkEvent) : State :=
  { s with chunks := s.chunks + 1, linkLog := ev :: s.linkLog }

/-- `LinkWrite(ep, bs, r[TIMEOUT])`: the answer and the state after the call, `none` where the listed
answer is outside the contract. With no answer listed the answer is a free draw (log entry 1). -/
def linkWrite (ep : Byte) (bs : List Byte) (s : State) : Option (WriteAnswer × State) :=
  match s.answers with
  | [] =>
    let a := clampWrite bs.length (Config.freeWriteAnswer s.draws)
    some (a, { s.logCall (.write ep bs s.timeout (some a)) with draws := s.draws + 1 })
  | .write a :: rest =>
    if writeWithin bs.length a then
      some (a, { s.logCall (.write ep bs s.timeout (some a)) with answers := rest })
    else none
  | .read _ :: _ => none

/-- `LinkRead(ep, c, r[TIMEOUT])`, likewise. -/
def linkRead (ep : Byte) (c : Nat) (s : State) : Option (ReadAnswer × State) :=
  match s.answers with
  | [] =>
    let a := clampRead c (Config.freeReadAnswer s.draws)
    some (a, { s.logCall (.read ep c s.timeout (some a)) with draws := s.draws + 1 })
  | .read a :: rest =>
    if readWithin c a then
      some (a, { s.logCall (.read ep c s.timeout (some a)) with answers := rest })
    else none
  | .write _ :: _ => none

/-! ### Chunk loops (41_bulk_transport.md R140-R144) -/

/-- How a chunk loop ended: `none`, or the error IO or ZERO (`stop` of 41_bulk_transport.md R140). -/
abbrev Stop := Option ErrCode

/-- The state with the running operation's context replaced. -/
def State.continueWith (s : State) (c : Ctx) : State := { s with engine := .run c }

/-- "`if N mod M512 = 0: warn M512_WARN`", before a write loop of N bytes (41_bulk_transport.md R142). -/
def warn512 (n : Nat) (s : State) : State := s.flagIf (decide (n % s.cfg.m512 = 0)) .m512Warn

/-- `min(CHUNK_MAX, N − moved)`, the size of the next chunk (41_bulk_transport.md R140, R141). -/
def chunkSize (s : State) (c : Ctx) : Nat := min s.cfg.chunkMax (c.target - c.cursor)

/-- What a write loop does with the answer to a chunk call: go on from the first unsent byte, or end,
flagging SHORT_WRITE where bytes are left (41_bulk_transport.md R140). `fin sent stop` is the rest of
the operation. -/
def afterWrite (fin : Nat → Stop → State → State) (c : Ctx) (a : WriteAnswer) (s : State) : State :=
  match a with
  | .err e =>
    fin c.cursor (some .io) ((State.flag { s with linkErr := e } .ioError).flag .shortWrite)
  | .ok k =>
    if k = 0 then fin c.cursor (some .zero) ((s.flag .zeroXfer).flag .shortWrite)
    else if c.cursor + k < c.target then s.continueWith { c with cursor := c.cursor + k }
    else fin (c.cursor + k) none s

/-- One step of a write loop: one chunk call and its bookkeeping, or the loop's end where nothing is
left to send (41_bulk_transport.md R140, R144). -/
def writeLoopStep (ep : Byte) (src : List Byte) (fin : Nat → Stop → State → State) (c : Ctx)
    (s : State) : Result :=
  if c.cursor < c.target then
    match linkWrite ep ((src.drop c.cursor).take (chunkSize s c)) s with
    | none => .fault .linkContract
    | some (a, s1) => .next (afterWrite fin c a s1)
  else .next (fin c.cursor none s)

/-- What a read loop does with the answer to a chunk call for `asked` bytes: store them at increasing
offsets, end at a short chunk, or go on (41_bulk_transport.md R141). -/
def afterRead (fin : Nat → Stop → State → State) (c : Ctx) (asked : Nat) (a : ReadAnswer)
    (s : State) : State :=
  match a with
  | .err e => fin c.cursor (some .io) (State.flag { s with linkErr := e } .ioError)
  | .ok bs =>
    let s1 := { s with rxbuf := s.rxbuf.write c.cursor bs }
    let got := c.cursor + bs.length
    if bs.length < asked then fin got none (s1.flag .shortRead)
    else if got < c.target then s1.continueWith { c with cursor := got }
    else fin got none s1

/-- One step of a read loop: one chunk call and its bookkeeping, or the loop's end where nothing is
left to read (41_bulk_transport.md R141, R144). -/
def readLoopStep (ep : Byte) (fin : Nat → Stop → State → State) (c : Ctx) (s : State) : Result :=
  if c.cursor < c.target then
    match linkRead ep (chunkSize s c) s with
    | none => .fault .linkContract
    | some (a, s1) => .next (afterRead fin c (chunkSize s c) a s1)
  else .next (fin c.cursor none s)

/-- The context of a fresh loop of N bytes (10_state.md R22). -/
def Ctx.loop (c : Ctx) (stage : Stage) (n : Nat) : Ctx :=
  { c with stage := stage, cursor := 0, target := n }

end Sys2Proof.Machine
end

