-- ==== Sys2Proof/Machine/Codec.lean ====
section
/-! DEFINITION. The packet codec operations NOP, CRC, SWAP, ENCODE and DECODE (40_packet_codec.md
R110-R114). Each "completes in one engine step". -/

namespace Sys2Proof.Machine

/-- NOP: `finish` (40_packet_codec.md R110). -/
def execNop (s : State) : Result := .next (finish s)

/-- CRC of a TXBUF prefix (40_packet_codec.md R111). -/
def execCrc (s : State) : Result :=
  if s.cfg.bufSize < s.xferCount then .next (rangeError s)
  else .next (finish { s with crcResult := crc16 s.cfg (s.txbuf.bytes 0 s.xferCount) })

/-- SWAP: pair swap of a TXBUF prefix in place (40_packet_codec.md R112). -/
def execSwap (s : State) : Result :=
  if s.cfg.bufSize < s.xferCount then .next (rangeError s)
  else .next (finish { s with txbuf := s.txbuf.write 0 (pairSwap (s.txbuf.bytes 0 s.xferCount)) })

/-- ENCODE: build the logical image of one packet in TXBUF (40_packet_codec.md R113). -/
def execEncode (s : State) : Result :=
  if s.cfg.maxPayload < s.payloadLen then .next (rangeError s)
  else .next (finish (encodeImage s))

/-- DECODE: validate the bytes in RXBUF and recover the logical image (40_packet_codec.md R114). -/
def execDecode (s : State) : Result :=
  if s.cfg.bufSize < s.rxLength then .next (rangeError s)
  else
    let r := validate s.rxLength (markEarly s.rxLength s)
    .next (endWith r.2 r.1)

end Sys2Proof.Machine
end

