-- ==== Sys2Proof/Machine/Guard.lean ====
section
/-! DEFINITION. The 512-byte boundary guard (42_boundary_guard.md). -/

namespace Sys2Proof.Machine

/-- `r[GUARD_OUT] <- {8'b0, rewind[7:0], w_adj[15:0]}` and `flag GUARD_HIT` on a hit
(42_boundary_guard.md R172). -/
def State.setGuard (s : State) (g : GuardResult) : State :=
  State.flagIf { s with guardWAdj := BitVec.ofNat 16 g.wAdj, guardRewind := BitVec.ofNat 8 g.rewind }
    g.hit .guardHit

/-- GUARD: compute the adjusted chunk length (42_boundary_guard.md R172). -/
def execGuard (s : State) : Result :=
  if s.cfg.guardMaxW < s.guardInput then .next (rangeError s)
  else .next (finish (s.setGuard (guardChunk s.cfg s.guardInput)))

end Sys2Proof.Machine
end

