-- ==== Sys2Proof/Machine/Transport.lean ====
section
/-! DEFINITION. The bulk transport operations BULK_WRITE, BULK_READ, SEND and RECV
(41_bulk_transport.md R145-R148). One engine step is one stage (R144). -/

namespace Sys2Proof.Machine

/-- The end of BULK_WRITE and SEND: `r[RESULT_COUNT] <- sent`, then the loop's error or `finish`
(41_bulk_transport.md R145, R147). -/
def writeDone (sent : Nat) (stop : Stop) (s : State) : State :=
  endWith stop { s with resultCount := BitVec.ofNat 17 sent }

/-- `r[RX_COUNT] <- got ; r[RESULT_COUNT] <- got` (41_bulk_transport.md R146, R148). -/
def State.setReceived (s : State) (got : Nat) : State :=
  { s with rxCount := BitVec.ofNat 17 got, resultCount := BitVec.ofNat 17 got }

/-- The end of BULK_READ (41_bulk_transport.md R146). -/
def readDone (got : Nat) (stop : Stop) (s : State) : State := endWith stop (s.setReceived got)

/-- BULK_WRITE: raw chunked write of a TXBUF prefix (41_bulk_transport.md R145). -/
def execBulkWrite (s : State) : Result :=
  match s.ctx.stage with
  | .start =>
    if s.cfg.bufSize < s.xferCount then .next (rangeError s)
    else writeLoopStep s.cfg.epOut (s.txbuf.bytes 0 s.xferCount) writeDone
      (s.ctx.loop .chunk s.xferCount) (warn512 s.xferCount s)
  | _ => writeLoopStep s.cfg.epOut (s.txbuf.bytes 0 s.ctx.target) writeDone s.ctx s

/-- BULK_READ: raw chunked read into RXBUF (41_bulk_transport.md R146). -/
def execBulkRead (s : State) : Result :=
  match s.ctx.stage with
  | .start =>
    if s.cfg.bufSize < s.xferCount then .next (rangeError s)
    else readLoopStep s.cfg.epIn readDone (s.ctx.loop .chunk s.xferCount) s
  | _ => readLoopStep s.cfg.epIn readDone s.ctx s

/-- What SEND prepares in its first step: the packet image, and the 512 test of its write loop
(41_bulk_transport.md R147, R144). -/
def sendPrepare (s : State) : State := warn512 s.transmitLen (encodeImage s)

/-- SEND: encode one packet and write its wire image (41_bulk_transport.md R147). -/
def execSend (s : State) : Result :=
  match s.ctx.stage with
  | .start =>
    if s.cfg.maxPayload < s.payloadLen then .next (rangeError s)
    else writeLoopStep s.cfg.epOut (wireImage (sendPrepare s) s.transmitLen) writeDone
      (s.ctx.loop .chunk s.transmitLen) (sendPrepare s)
  | _ => writeLoopStep s.cfg.epOut (wireImage s s.ctx.target) writeDone s.ctx s

/-- The end of RECV: `validate`, whose error comes first, then the error ACK where the
acknowledgement did not go out whole (41_bulk_transport.md R148, 60_exceptions.md R184). -/
def recvValidate (n : Nat) (ackFailed : Bool) (s : State) : State :=
  let r := validate n s
  match r.2 with
  | some e => raise e r.1
  | none => if ackFailed then raise .ack r.1 else finish r.1

/-- What RECV does when its read loop ends: report the counts, stop on an error, recognise an early
FILE_DATA, and either start the acknowledgement loop or validate (41_bulk_transport.md R148). -/
def recvReadDone (got : Nat) (stop : Stop) (s : State) : State :=
  let s1 := s.setReceived got
  match stop with
  | some e => raise e s1
  | none =>
    let s2 := markEarly got s1
    if isEarlyFileData got s1 && s2.autoAck then
      (warn512 8 s2).continueWith (s2.ctx.loop .ackChunk 8)
    else recvValidate got false s2

/-- What RECV does when its acknowledgement loop ends: flag ACK_SENT or ACK_FAIL, then validate the
bytes received, counted in RX_COUNT (41_bulk_transport.md R148). -/
def recvAckDone (sent : Nat) (_stop : Stop) (s : State) : State :=
  if sent = 8 then recvValidate s.rxLength false (s.flag .ackSent)
  else recvValidate s.rxLength true (s.flag .ackFail)

/-- RECV: read one packet, acknowledge an early FILE_DATA, and validate (41_bulk_transport.md R148). -/
def execRecv (s : State) : Result :=
  match s.ctx.stage with
  | .start => readLoopStep s.cfg.epIn recvReadDone (s.ctx.loop .chunk s.cfg.rxReadLen) s
  | .chunk => readLoopStep s.cfg.epIn recvReadDone s.ctx s
  | .ackChunk => writeLoopStep s.cfg.epOut (ackWire s.cfg) recvAckDone s.ctx s

end Sys2Proof.Machine
end

