-- ==== Sys2Proof/Machine/Dispatch.lean ====
section
/-! DEFINITION. The meaning of each operation: the engine step that performs the running operation's
next stage (10_state.md R22). -/

namespace Sys2Proof.Machine

def exec (i : Instr) (s : State) : Host.Outcome State Fault Refusal :=
  match i with
  | .nop => Sys2Proof.Machine.execNop s
  | .crc => Sys2Proof.Machine.execCrc s
  | .swap => Sys2Proof.Machine.execSwap s
  | .encode => Sys2Proof.Machine.execEncode s
  | .decode => Sys2Proof.Machine.execDecode s
  | .bulkWrite => Sys2Proof.Machine.execBulkWrite s
  | .bulkRead => Sys2Proof.Machine.execBulkRead s
  | .send => Sys2Proof.Machine.execSend s
  | .recv => Sys2Proof.Machine.execRecv s
  | .guard => Sys2Proof.Machine.execGuard s

end Sys2Proof.Machine
end

