-- ==== Sys2Proof/Machine/HostPort.lean ====
section
/-! DEFINITION. The host's side of the block: the address map (20_memory.md R60), the register map
(10_state.md R23), host reads and writes (20_memory.md R61) and busy protection (R70). -/

namespace Sys2Proof.Machine

/-- Where a host access of a width lands (20_memory.md R60, R61). `reg o` is offset o of the register
region, reserved offsets included. -/
inductive Place where
  | reg (o : Nat)
  | buffer (b : Buf) (o : Nat)
  | bad
  deriving DecidableEq, Repr

/-- The first address of a buffer's window (20_memory.md R60). -/
def bufBase : Buf → Nat
  | .txbuf => 0x10000
  | .rxbuf => 0x20000
  | .rxpkt => 0x30000

/-- A byte at address a of a buffer window: offsets below BUF_SIZE, one byte wide
(20_memory.md R60, R61). -/
def bufferPlace (bufSize : Nat) (b : Buf) (a : Nat) (n : Width) : Place :=
  if n = .byte ∧ a - bufBase b < bufSize then .buffer b (a - bufBase b) else .bad

/-- The map of 20_memory.md R60 with the widths of R61. -/
def placeOf (bufSize : Nat) (addr : Addr) (n : Width) : Place :=
  let a := addr.toNat
  if a < 0x100 then (if n = .word ∧ a % 4 = 0 then .reg a else .bad)
  else if a < 0x10000 then .bad
  else if a < 0x20000 then bufferPlace bufSize .txbuf a n
  else if a < 0x30000 then bufferPlace bufSize .rxbuf a n
  else bufferPlace bufSize .rxpkt a n

/-- The offset of each register (10_state.md R23). -/
def regOffset : Reg → Nat
  | .op => 0x000
  | .status => 0x004
  | .flags => 0x008
  | .sticky => 0x00C
  | .config => 0x010
  | .timeout => 0x014
  | .txCmd => 0x018
  | .txPlen => 0x01C
  | .xferLen => 0x020
  | .guardW => 0x024
  | .rxCount => 0x028
  | .resultCount => 0x02C
  | .txWireLen => 0x030
  | .rxLen => 0x034
  | .rxCmd => 0x038
  | .rxCrc => 0x03C
  | .crcResult => 0x040
  | .guardOut => 0x044
  | .linkErr => 0x048
  | .chunks => 0x04C
  | .param0 => 0x050
  | .param1 => 0x054

/-- The register at an offset of the register region; `none` is a reserved offset (10_state.md R23,
R46). -/
def regOfOffset (o : Nat) : Option Reg :=
  match o with
  | 0x000 => some .op
  | 0x004 => some .status
  | 0x008 => some .flags
  | 0x00C => some .sticky
  | 0x010 => some .config
  | 0x014 => some .timeout
  | 0x018 => some .txCmd
  | 0x01C => some .txPlen
  | 0x020 => some .xferLen
  | 0x024 => some .guardW
  | 0x028 => some .rxCount
  | 0x02C => some .resultCount
  | 0x030 => some .txWireLen
  | 0x034 => some .rxLen
  | 0x038 => some .rxCmd
  | 0x03C => some .rxCrc
  | 0x040 => some .crcResult
  | 0x044 => some .guardOut
  | 0x048 => some .linkErr
  | 0x04C => some .chunks
  | 0x050 => some .param0
  | 0x054 => some .param1
  | _ => none

/-- The 32-bit value of each register, reserved bits 0 (10_state.md R24-R44, R46). OP is write-only
and reads 0; PARAM0 and PARAM1 are the configuration's. -/
def regValue (s : State) : Reg → Word
  | .op => 0
  | .status => s.status.word
  | .flags => s.flags.setWidth 32
  | .sticky => s.sticky.setWidth 32
  | .config => s.config.setWidth 32
  | .timeout => s.timeout
  | .txCmd => s.txCmd
  | .txPlen => s.txPlen.setWidth 32
  | .xferLen => s.xferLen.setWidth 32
  | .guardW => s.guardW.setWidth 32
  | .rxCount => s.rxCount.setWidth 32
  | .resultCount => s.resultCount.setWidth 32
  | .txWireLen => s.txWireLen.setWidth 32
  | .rxLen => s.rxLen.setWidth 32
  | .rxCmd => s.rxCmd
  | .rxCrc => s.rxCrcComputed ++ s.rxCrcEmbedded
  | .crcResult => s.crcResult.setWidth 32
  | .guardOut => (0 : BitVec 8) ++ s.guardRewind ++ s.guardWAdj
  | .linkErr => s.linkErr
  | .chunks => s.chunks
  | .param0 => BitVec.ofNat 32 s.cfg.chunkMax
  | .param1 => BitVec.ofNat 32 s.cfg.m512

/-- FLAGS and the result registers (offsets 0x028-0x04C): what a host read returns is unspecified
while an operation runs (20_memory.md R70, 10_state.md R49). -/
def regHidden : Reg → Bool
  | .flags | .rxCount | .resultCount | .txWireLen | .rxLen | .rxCmd | .rxCrc | .crcResult
  | .guardOut | .linkErr | .chunks => true
  | .op | .status | .sticky | .config | .timeout | .txCmd | .txPlen | .xferLen | .guardW
  | .param0 | .param1 => false

/-- The registers a host write changes while the engine is idle and BUSY_REJECT protects while it
runs (20_memory.md R70). -/
def regProtected : Reg → Bool
  | .op | .config | .timeout | .txCmd | .txPlen | .xferLen | .guardW | .rxCount => true
  | .status | .flags | .sticky | .resultCount | .txWireLen | .rxLen | .rxCmd | .rxCrc | .crcResult
  | .guardOut | .linkErr | .chunks | .param0 | .param1 => false

/-- An accepted host write of v to a register: it stores the field bits, a write to OP accepts an
operation, a write to STICKY clears the bits written as 1, and a read-only register ignores it
(10_state.md R22-R44, 20_memory.md R68). -/
def regWrite (r : Reg) (v : Word) (s : State) : State :=
  match r with
  | .op => accept v s
  | .sticky => { s with sticky := s.sticky &&& ~~~(v.setWidth 19) }
  | .config => { s with config := configStored v }
  | .timeout => { s with timeout := v }
  | .txCmd => { s with txCmd := v }
  | .txPlen => { s with txPlen := v.setWidth 16 }
  | .xferLen => { s with xferLen := v.setWidth 17 }
  | .guardW => { s with guardW := v.setWidth 16 }
  | .rxCount => { s with rxCount := v.setWidth 17 }
  | .status | .flags | .resultCount | .txWireLen | .rxLen | .rxCmd | .rxCrc | .crcResult
  | .guardOut | .linkErr | .chunks | .param0 | .param1 => s

/-- Whether the engine runs an operation (10_state.md R22). -/
def State.running (s : State) : Bool :=
  match s.engine with
  | .run _ => true
  | .idle => false

/-- The value a host read returns. -/
def State.answer (s : State) (v : Word) : State := { s with readData := some v }

/-- The value a host read returns where it is unspecified: a fresh draw (20_memory.md R70). -/
def State.answerFree (s : State) (v : Word) : State :=
  { s with readData := some v, draws := s.draws + 1 }

/-- `MemRead(a, n)` (20_memory.md R61, R70). A reserved offset reads 0 (10_state.md R46). What a hidden
register reads as while the engine runs is free in all 32 bits: that its reserved bits (FLAGS 31:17 and
the like) are free too, and not 0 as R46 has them, is a DESIGN CHOICE, log entry 3. -/
def hostRead (a : Addr) (n : Width) (s : State) : State :=
  match placeOf s.cfg.bufSize a n with
  | .reg o =>
    match regOfOffset o with
    | none => s.answer 0
    | some r =>
      if s.running && regHidden r then s.answerFree (Config.freeWord s.draws)
      else s.answer (regValue s r)
  | .buffer b o =>
    if s.running then s.answerFree ((Config.freeByte s.draws).setWidth 32)
    else s.answer (((s.buffer b).read o).setWidth 32)
  | .bad => (s.setSticky badAccessBit).answer 0

/-- `MemWrite(a, n, v)` (20_memory.md R61, R70). A reserved offset ignores it (10_state.md R46). -/
def hostWrite (a : Addr) (n : Width) (v : Word) (s : State) : State :=
  match placeOf s.cfg.bufSize a n with
  | .reg o =>
    match regOfOffset o with
    | none => s
    | some r =>
      if s.running && regProtected r then s.setSticky busyRejectBit else regWrite r v s
  | .buffer b o =>
    if s.running then s.setSticky busyRejectBit
    else s.setBuffer b ((s.buffer b).write o [v.extractLsb' 0 8])
  | .bad => s.setSticky badAccessBit

/-- One host step (10_state.md R20). -/
def hostStep (x : HostAccess) (s : State) : State :=
  match x with
  | .read a n => hostRead a n s
  | .write a n v => hostWrite a n v s

/-! ### Host notation (30_encoding.md R92) -/

/-- One line of a host program. `wait` and `run` poll STATUS; how often is the host's own business,
so the number of polls is given (log entry 8). -/
inductive HostLine where
  | w (r : Reg) (v : Word)
  | r (r : Reg)
  | wb (b : Buf) (o : Nat) (bytes : List Byte)
  | rb (b : Buf) (o k : Nat)
  | op (m : Word)
  | wait (polls : Nat)
  | run (m : Word) (polls : Nat)
  deriving DecidableEq, Repr

/-- The turns `wait` takes: engine steps, a poll of STATUS after each. -/
def waitTurns : Nat → List Turn
  | 0 => []
  | k + 1 =>
    .engine :: .host (.read (BitVec.ofNat 18 (regOffset .status)) .word) :: waitTurns k

/-- The host accesses a line stands for (30_encoding.md R92). -/
def HostLine.turns : HostLine → List Turn
  | .w x v => [.host (.write (BitVec.ofNat 18 (regOffset x)) .word v)]
  | .r x => [.host (.read (BitVec.ofNat 18 (regOffset x)) .word)]
  | .wb b o bytes =>
    (numbered (bufBase b + o) bytes).map fun c =>
      .host (.write (BitVec.ofNat 18 c.1) .byte (c.2.setWidth 32))
  | .rb b o k =>
    (List.range k).map fun i => .host (.read (BitVec.ofNat 18 (bufBase b + o + i)) .byte)
  | .op m => [.host (.write 0 .word m)]
  | .wait polls => waitTurns polls
  | .run m polls => .host (.write 0 .word m) :: waitTurns polls

/-- The turns of a host program, line by line. -/
def programTurns (p : List HostLine) : List Turn := p.flatMap HostLine.turns

/-- The payload of an upload data packet, which the host builds: the 8-byte running offset counter,
big-endian, then the chunk (42_boundary_guard.md R170). -/
def uploadPayload (offset : Nat) (chunk : List Byte) : List Byte :=
  be64 (BitVec.ofNat 64 offset) ++ chunk

end Sys2Proof.Machine
end

