-- ==== Sys2Proof/Machine/Turns.lean ====
section
/-! DEFINITION. The turns of the three agents and the reset input (10_state.md R20,
70_reset_and_hazards.md R200, R202). -/

namespace Sys2Proof.Machine

/-- An engine step while RUN: decode the accepted word and perform its next stage; a reserved word
ends with ERR ILLEGAL (10_state.md R22, 30_encoding.md R82). -/
def engineStep (c : Ctx) (s : State) : Result :=
  match decode c.word with
  | .ok i => exec i s
  | .error _ => .next (illegalOp s)

/-- The engine's turn: "the engine steps only while `phase = RUN`" (10_state.md R20), and an idle
engine "holds all state" (60_exceptions.md R195). -/
def engineTurn (s : State) : Result :=
  match s.engine with
  | .run c => engineStep c s
  | .idle => .next s

/-- A logged call whose answer a reset discards (70_reset_and_hazards.md R202). It keeps all the bytes
offered: how many of them the link had been handed is not recorded (log entry 10). -/
def discardAnswer : LinkEvent → LinkEvent
  | .write ep bs t _ => .write ep bs t none
  | .read ep c t _ => .read ep c t none

/-- The link call the engine's next step would make, if any: what reaches the link does not depend on
its answer, so it is read off the step with no answer listed. -/
def nextCall (s : State) : Option LinkEvent :=
  match engineTurn { s with answers := [] } with
  | .next t => if s.linkLog.length < t.linkLog.length then t.linkLog.head? else none
  | .fault _ => none
  | .refused _ => none

/-- A reset while the engine's next link call is in progress: the bytes handed to the link stay sent
(the call stays in the log), its answer is discarded, and the block resets (70_reset_and_hazards.md
R202; log entry 10). Where no call is in progress it is the plain reset. -/
def resetInCall (s : State) : State :=
  match nextCall s with
  | some ev =>
    blockReset { s with linkLog := discardAnswer ev :: s.linkLog, answers := s.answers.tail }
  | none => blockReset s

/-- One turn of the schedule. -/
def takeTurn (x : Turn) (s : State) : Result :=
  match x with
  | .engine => engineTurn s
  | .host a => .next (hostStep a s)
  | .reset => .next (blockReset s)
  | .resetInCall => .next (resetInCall s)

/-- The next step: the schedule's oldest turn, and with none scheduled the engine's (10_state.md R20;
log entry 8). -/
def nextTurn (s : State) : Result :=
  match s.schedule with
  | [] => engineTurn s
  | x :: rest => takeTurn x { s with schedule := rest }

/-- The state in which the operation word w has just been accepted and the engine's turn is next. -/
def withAccepted (w : Word) (s : State) : State :=
  { accept w s with schedule := .engine :: s.schedule }

end Sys2Proof.Machine
end

