-- ==== Sys2Proof/Machine/Step.lean ====
section
/-! DEFINITION. One step of the machine, and the placing of an operation word where the next step
runs it. -/

namespace Sys2Proof.Machine

/-- One step: a host access, an engine stage with its link call, or the reset input (00_scope.md R5,
10_state.md R20). -/
def step (s : State) : Host.Outcome State Fault Refusal := nextTurn s

/-- The block fetches nothing (20_memory.md R60); an operation comes to run when the host writes its
word to OP. This is s with that word accepted and the engine's turn next (log entry 11). -/
def State.withFetchWord (s : State) (nbits w : Nat) : State := withAccepted (tableWord nbits w) s

end Sys2Proof.Machine
end

