-- ==== Sys2Proof/Safety.lean ====
section
/-! DEFINITION. The terms the claims use: what a step leaves unchanged, the invariant of the machine,
and the measure of the engine's remaining work. -/

namespace Sys2Proof.Machine

/-! ### Frames -/

/-- Every register of the map reads as before except those named. -/
def RegsKeptBut (rs : List Reg) (s t : State) : Prop :=
  ∀ r, r ∉ rs → regValue t r = regValue s r

/-- Every byte of every buffer reads as before. -/
def BytesKept (s t : State) : Prop :=
  ∀ b o, (t.buffer b).read o = (s.buffer b).read o

/-- Every byte of every buffer reads as before except offsets from..from+n−1 of buffer b. -/
def BytesKeptBut (b : Buf) (start n : Nat) (s t : State) : Prop :=
  ∀ b' o, ¬(b' = b ∧ start ≤ o ∧ o < start + n) → (t.buffer b').read o = (s.buffer b').read o

/-- Every byte of the two buffers other than b reads as before. -/
def OtherBuffersKept (b : Buf) (s t : State) : Prop :=
  ∀ b' o, b' ≠ b → (t.buffer b').read o = (s.buffer b').read o

/-- No link call was made, and nothing outside the block changed. -/
def NoLinkCall (s t : State) : Prop :=
  t.linkLog = s.linkLog ∧ t.answers = s.answers ∧ t.draws = s.draws

/-- The configuration, the turns waiting and the last value read are as before. -/
def SurroundingsKept (s t : State) : Prop :=
  t.cfg = s.cfg ∧ t.schedule = s.schedule ∧ t.readData = s.readData

/-- The operation has ended normally: STATUS.ERR and LAST_OP as before, BUSY 0, DONE 1, phase IDLE
(10_state.md R22 `finish`). -/
def EndedNormally (s t : State) : Prop :=
  t.engine = .idle ∧ t.status = { busy := false, done := true, lastOp := s.status.lastOp, err := s.status.err }

/-- The operation has ended with error code e (10_state.md R22 `raise`). -/
def EndedWith (e : Byte) (s t : State) : Prop :=
  t.engine = .idle ∧ t.status = { busy := false, done := true, lastOp := s.status.lastOp, err := e }

/-- The bits `flag` has set in both FLAGS and STICKY: exactly those of fs, no other bit changed. -/
def FlagsAdded (fs : List Flag) (s t : State) : Prop :=
  (∀ f, t.hasFlag f = (s.hasFlag f || decide (f ∈ fs))) ∧
  (∀ f : Flag, t.hasSticky f.bit = (s.hasSticky f.bit || decide (f ∈ fs))) ∧
  t.hasSticky busyRejectBit = s.hasSticky busyRejectBit ∧
  t.hasSticky badAccessBit = s.hasSticky badAccessBit

/-! ### The invariant -/

/-- What the context of a running operation satisfies, by stage (10_state.md R22, 41_bulk_transport.md
R144): a chunk stage belongs to an operation that calls the link, has bytes left to move, and its
total is the one its operand registers give. -/
def CtxValid (s : State) (c : Ctx) : Prop :=
  match c.stage with
  | .start => c.cursor = 0 ∧ c.target = 0
  | .chunk =>
    c.cursor < c.target ∧
    ((decode c.word = .ok .bulkWrite ∧ c.target = s.xferCount ∧ s.xferCount ≤ s.cfg.bufSize) ∨
     (decode c.word = .ok .bulkRead ∧ c.target = s.xferCount ∧ s.xferCount ≤ s.cfg.bufSize) ∨
     (decode c.word = .ok .send ∧ c.target = s.transmitLen ∧ s.payloadLen ≤ s.cfg.maxPayload) ∨
     (decode c.word = .ok .recv ∧ c.target = s.cfg.rxReadLen))
  | .ackChunk =>
    c.cursor < c.target ∧ c.target = 8 ∧ decode c.word = .ok .recv ∧
    s.resultCount = s.rxCount ∧ s.rxLength ≤ s.cfg.rxReadLen ∧
    isEarlyFileData s.rxLength s = true

/-- The invariant of the block: what holds after reset and every step keeps. -/
structure State.Inv (s : State) : Prop where
  /-- The configuration is one the spec is about. -/
  cfg_ok : s.cfg.WellFormed
  /-- Each buffer is in canonical form. -/
  buffers_wf : ∀ b, (s.buffer b).wf = true
  /-- No listed byte lies at or above BUF_SIZE. -/
  buffers_within : ∀ b, (s.buffer b).within s.cfg.bufSize = true
  /-- "BUSY: 1 while `phase = RUN`" (10_state.md R27). -/
  busy_iff_run : s.status.busy = s.running
  /-- An operation that runs has not finished and has raised nothing (10_state.md R22). -/
  run_clean : s.running = true → s.status.done = false ∧ s.status.err = 0
  /-- "Codes 0x0A..0xFF are never written" (60_exceptions.md R181). -/
  err_legal : s.status.err.toNat ≤ 9
  /-- CONFIG.CRC_MODE is never 3 (10_state.md R28). -/
  crc_mode_legal : s.crcMode ≠ 3
  /-- LAST_OP holds bits 7:0 of the running operation's word (10_state.md R27). -/
  last_op : ∀ c, s.engine = .run c → s.status.lastOp = opcOf c.word
  /-- The running operation's context is that of its rule. -/
  ctx_valid : ∀ c, s.engine = .run c → CtxValid s c

/-! ### The engine's remaining work -/

/-- An upper bound on the engine steps an operation still takes: the bytes its loop has left, eight
more for RECV's acknowledgement, and one for a first step (41_bulk_transport.md R150). -/
def engineWork (s : State) : Nat :=
  match s.engine with
  | .idle => 0
  | .run c =>
    match c.stage with
    | .start => s.cfg.bufSize + 10
    | .chunk => c.target - c.cursor + 9
    | .ackChunk => c.target - c.cursor

/-! ### What each operation may write -/

/-- The registers an engine step of each operation can change: STATUS and the flags every operation
reports in, and the result registers its rule writes (10_state.md R22, 40_packet_codec.md R110-R114,
41_bulk_transport.md R145-R148, 42_boundary_guard.md R172). -/
def regsWritten : Instr → List Reg
  | .nop => [.status]
  | .crc => [.status, .flags, .sticky, .crcResult]
  | .swap => [.status, .flags, .sticky]
  | .encode => [.status, .flags, .sticky, .txWireLen]
  | .decode => [.status, .flags, .sticky, .rxLen, .rxCmd, .rxCrc]
  | .bulkWrite => [.status, .flags, .sticky, .resultCount, .linkErr, .chunks]
  | .bulkRead => [.status, .flags, .sticky, .rxCount, .resultCount, .linkErr, .chunks]
  | .send => [.status, .flags, .sticky, .txWireLen, .resultCount, .linkErr, .chunks]
  | .recv =>
    [.status, .flags, .sticky, .rxCount, .resultCount, .rxLen, .rxCmd, .rxCrc, .linkErr, .chunks]
  | .guard => [.status, .flags, .sticky, .guardOut]

/-- The buffers an engine step of each operation can change (10_state.md R45, 70_reset_and_hazards.md
R209). -/
def buffersWritten : Instr → List Buf
  | .nop => []
  | .crc => []
  | .swap => [.txbuf]
  | .encode => [.txbuf]
  | .decode => [.rxpkt]
  | .bulkWrite => []
  | .bulkRead => [.rxbuf]
  | .send => [.txbuf]
  | .recv => [.rxbuf, .rxpkt]
  | .guard => []

/-- The line "Flags written" of each operation's rule. -/
def flagsWritten : Instr → List Flag
  | .nop => []
  | .crc => [.rangeErr]
  | .swap => [.rangeErr]
  | .encode => [.rangeErr]
  | .decode =>
    [.rangeErr, .earlyFileData, .tooShort, .badLen, .shortPacket, .crcChecked, .crcMismatch, .rxValid]
  | .bulkWrite => [.rangeErr, .m512Warn, .ioError, .zeroXfer, .shortWrite]
  | .bulkRead => [.rangeErr, .ioError, .shortRead]
  | .send => [.rangeErr, .m512Warn, .ioError, .zeroXfer, .shortWrite]
  | .recv =>
    [.ioError, .shortRead, .earlyFileData, .ackSent, .ackFail, .m512Warn, .zeroXfer, .shortWrite,
     .tooShort, .badLen, .shortPacket, .crcChecked, .crcMismatch, .rxValid]
  | .guard => [.rangeErr, .guardHit]

/-- The error codes each operation can raise (60_exceptions.md R181, R184). -/
def errorsRaised : Instr → List Byte
  | .nop => []
  | .crc => [0x02]
  | .swap => [0x02]
  | .encode => [0x02]
  | .decode => [0x02, 0x05, 0x06, 0x07, 0x08]
  | .bulkWrite => [0x02, 0x03, 0x04]
  | .bulkRead => [0x02, 0x03]
  | .send => [0x02, 0x03, 0x04]
  | .recv => [0x03, 0x05, 0x06, 0x07, 0x08, 0x09]
  | .guard => [0x02]

/-! ### Chunk calls -/

/-- A link call was made: it is the newest of the log, CHUNKS counts it, and its answer was the oldest
of those listed (10_state.md R43, 41_bulk_transport.md R143). -/
def CallMade (ev : LinkEvent) (rest : List LinkAnswer) (s t : State) : Prop :=
  t.linkLog = ev :: s.linkLog ∧ t.chunks = s.chunks + 1 ∧ t.answers = rest ∧ t.draws = s.draws

/-- What a chunk call of BULK_WRITE's or SEND's write loop leads to, with `sent` of `total` bytes sent
before it, the link's answer a, and the flags `pre` that the step sets anyway (41_bulk_transport.md
R140, R145, R147): an error with RESULT_COUNT the bytes sent before it, the loop going on from the
first unsent byte, or the end with RESULT_COUNT the whole. -/
def WriteOutcome (word : Word) (sent total : Nat) (a : WriteAnswer) (pre : List Flag) (s t : State) :
    Prop :=
  match a with
  | .err e =>
    EndedWith 0x03 s t ∧ t.linkErr = e ∧ t.resultCount = BitVec.ofNat 17 sent ∧
      FlagsAdded (pre ++ [.ioError, .shortWrite]) s t
  | .ok 0 =>
    EndedWith 0x04 s t ∧ t.linkErr = s.linkErr ∧ t.resultCount = BitVec.ofNat 17 sent ∧
      FlagsAdded (pre ++ [.zeroXfer, .shortWrite]) s t
  | .ok (k + 1) =>
    t.linkErr = s.linkErr ∧ FlagsAdded pre s t ∧
    (sent + (k + 1) < total →
      t.engine = .run { word := word, stage := .chunk, cursor := sent + (k + 1), target := total } ∧
      t.status = s.status ∧ t.resultCount = s.resultCount) ∧
    (total ≤ sent + (k + 1) →
      EndedNormally s t ∧ t.resultCount = BitVec.ofNat 17 (sent + (k + 1)))

/-- What a chunk call of BULK_READ's read loop leads to, with `got` of `total` bytes read before it and
`asked` bytes asked (41_bulk_transport.md R141, R146). -/
def ReadOutcome (word : Word) (got total asked : Nat) (a : ReadAnswer) (s t : State) : Prop :=
  match a with
  | .err e =>
    EndedWith 0x03 s t ∧ t.linkErr = e ∧ t.rxCount = BitVec.ofNat 17 got ∧
      t.resultCount = BitVec.ofNat 17 got ∧ FlagsAdded [.ioError] s t ∧ BytesKept s t
  | .ok bs =>
    t.linkErr = s.linkErr ∧ t.rxbuf.bytes got bs.length = bs ∧
    BytesKeptBut .rxbuf got bs.length s t ∧
    (bs.length < asked →
      EndedNormally s t ∧ t.rxCount = BitVec.ofNat 17 (got + bs.length) ∧
      t.resultCount = BitVec.ofNat 17 (got + bs.length) ∧ FlagsAdded [.shortRead] s t) ∧
    (asked ≤ bs.length → got + bs.length < total →
      t.engine = .run { word := word, stage := .chunk, cursor := got + bs.length, target := total } ∧
      t.status = s.status ∧ t.rxCount = s.rxCount ∧ t.resultCount = s.resultCount ∧
      FlagsAdded [] s t) ∧
    (asked ≤ bs.length → total ≤ got + bs.length →
      EndedNormally s t ∧ t.rxCount = BitVec.ofNat 17 (got + bs.length) ∧
      t.resultCount = BitVec.ofNat 17 (got + bs.length) ∧ FlagsAdded [] s t)

/-- The flag a 512-multiple total adds (41_bulk_transport.md R142). -/
def warnFlags (s : State) (n : Nat) : List Flag := if n % s.cfg.m512 = 0 then [.m512Warn] else []

/-- The endpoint, the timeout value and the size of a logged call are those the block passes
(41_bulk_transport.md R143, 00_scope.md R11), and its answer is inside the contract (10_state.md R21). -/
def CallInContract (s : State) : LinkEvent → Prop
  | .write ep bs t (some a) =>
    ep = s.cfg.epOut ∧ t = s.timeout ∧ bs.length ≤ s.cfg.chunkMax ∧ writeWithin bs.length a = true
  | .read ep n t (some a) =>
    ep = s.cfg.epIn ∧ t = s.timeout ∧ n ≤ s.cfg.chunkMax ∧ readWithin n a = true
  | .write _ _ _ none => False
  | .read _ _ _ none => False

/-- A chunk call an engine step makes: a write that offers n bytes, or a read that asks for n. -/
inductive ChunkCall where
  | write (n : Nat)
  | read (n : Nat)
  deriving DecidableEq, Repr

/-- Whether an answer is outside the contract of a call: of the other kind, or of more bytes than offered
or asked (10_state.md R21). -/
def ChunkCall.rejects : ChunkCall → LinkAnswer → Bool
  | .write n, .write a => !writeWithin n a
  | .write _, .read _ => true
  | .read n, .read a => !readWithin n a
  | .read _, .write _ => true

/-- The next chunk of a loop that has moved `moved` of `total` bytes, `none` where the loop is at its
end (41_bulk_transport.md R140, R141). -/
def nextChunk (s : State) (moved total : Nat) : Option Nat :=
  if moved < total then some (min s.cfg.chunkMax (total - moved)) else none

/-- The chunk call that an engine step of operation i makes, if any, by the stage it is in
(41_bulk_transport.md R144-R148): a first step in range starts the operation's first loop, a chunk
step goes on with it, and RECV's acknowledgement loop offers what is left of ACK_WIRE's 8 bytes. -/
def chunkCall (i : Instr) (s : State) : Option ChunkCall :=
  match i with
  | .nop | .crc | .swap | .encode | .decode | .guard => none
  | .bulkWrite =>
    match s.ctx.stage with
    | .start => if s.cfg.bufSize < s.xferCount then none else (nextChunk s 0 s.xferCount).map .write
    | .chunk | .ackChunk => (nextChunk s s.ctx.cursor s.ctx.target).map .write
  | .bulkRead =>
    match s.ctx.stage with
    | .start => if s.cfg.bufSize < s.xferCount then none else (nextChunk s 0 s.xferCount).map .read
    | .chunk | .ackChunk => (nextChunk s s.ctx.cursor s.ctx.target).map .read
  | .send =>
    match s.ctx.stage with
    | .start =>
      if s.cfg.maxPayload < s.payloadLen then none else (nextChunk s 0 s.transmitLen).map .write
    | .chunk | .ackChunk => (nextChunk s s.ctx.cursor s.ctx.target).map .write
  | .recv =>
    match s.ctx.stage with
    | .start => (nextChunk s 0 s.cfg.rxReadLen).map .read
    | .chunk => (nextChunk s s.ctx.cursor s.ctx.target).map .read
    | .ackChunk => (nextChunk s s.ctx.cursor s.ctx.target).map fun n => .write (min n (8 - s.ctx.cursor))

/-! ### What the link took and gave -/

/-- The bytes a logged call is known to have moved to the link: the first k of those offered where it
answered Ok(k). A write that answered Err counts none, as the block's own count does (41_bulk_transport.md
R140). A write cut off by a reset, its answer discarded, counts none either: DESIGN CHOICE, log entry 10,
since R202 says only that bytes already handed to the link stay sent, and not how many those were. -/
def bytesTaken : LinkEvent → List Byte
  | .write _ offered _ (some (.ok k)) => offered.take k
  | .write _ _ _ (some (.err _)) => []
  | .write _ _ _ none => []
  | .read _ _ _ _ => []

/-- The answers of a link that takes whole chunks of `size` bytes, for n bytes (fuel bounds the list). -/
def wholeChunks (size : Nat) : Nat → Nat → List LinkAnswer
  | 0, _ => []
  | fuel + 1, n => if n = 0 then [] else .write (.ok (min size n)) :: wholeChunks size fuel (n - min size n)

end Sys2Proof.Machine
end

