-- ==== Sys2Proof/Certificates/Slice0/Obligations.lean ====
section
/-! DEFINITION. The statements for the provers, from the numbered rules of the spec. -/

open Sys2Proof Sys2Proof.Machine

/-! ### Encoding (30_encoding.md) -/

/-- R81's ten words decode to their operations, and words with a reserved OPC or an MBZ bit are
rejected by name (R82). -/
def Obligations.OperationWordsDecodeByTable : Prop :=
  decode 0x00000000 = .ok .nop ∧ decode 0x00000001 = .ok .crc ∧ decode 0x00000002 = .ok .swap ∧
  decode 0x00000003 = .ok .encode ∧ decode 0x00000004 = .ok .decode ∧
  decode 0x00000005 = .ok .bulkWrite ∧ decode 0x00000006 = .ok .bulkRead ∧
  decode 0x00000007 = .ok .send ∧ decode 0x00000008 = .ok .recv ∧ decode 0x00000009 = .ok .guard ∧
  decode 0x0000000A = .error .reservedOpc ∧ decode 0x000000FF = .error .reservedOpc ∧
  decode 0x00000107 = .error .mbzSet

/-- A word decodes to an operation exactly when it is that operation's word: every bit of the word
counts (R80, R81), and every word with OPC at most 0x09 and MBZ zero is some operation's (R82). -/
def Obligations.DecodeInvertsEncode : Prop :=
  (∀ w i, decode w = .ok i ↔ w = encode i) ∧
  (∀ w, OpWordLegal w ↔ ∃ i, w = encode i)

/-! ### Lifecycle (10_state.md R20, R22) -/

/-- R82: a reserved word is accepted like any word and ends at its first engine step with ILLEGAL_OP
and ERR ILLEGAL, reading no operand, calling no link, changing no buffer or result register. -/
def Obligations.ReservedWordEndsIllegal : Prop :=
  ∀ (s : State) (w : Word), s.engine = .idle → ¬ OpWordLegal w →
    (hostWrite 0x00000 .word w s).running = true ∧
    ∃ t, engineTurn (hostWrite 0x00000 .word w s) = .next t ∧
      t.engine = .idle ∧
      t.status = { busy := false, done := true, lastOp := w.extractLsb' 0 8, err := 0x01 } ∧
      t.flags = 0x08000 ∧ FlagsAdded [.illegalOp] (hostWrite 0x00000 .word w s) t ∧
      RegsKeptBut [.status, .flags, .sticky, .chunks] s t ∧ BytesKept s t ∧ NoLinkCall s t ∧
      SurroundingsKept s t ∧ t.chunks = 0

/-- R24, R22: a write to OP while IDLE accepts the word, changing nothing but STATUS, FLAGS, CHUNKS and
the engine; a read of OP returns 0; after reset no operation is pending.
That a read of OP returns 0 while an operation runs too is log entry 3 (DEDUCED). -/
def Obligations.OpWriteAcceptsOperation : Prop :=
  (∀ (s : State) (w : Word), s.engine = .idle →
    (hostWrite 0x00000 .word w s).engine =
      .run { word := w, stage := .start, cursor := 0, target := 0 } ∧
    (hostWrite 0x00000 .word w s).status =
      { busy := true, done := false, lastOp := w.extractLsb' 0 8, err := 0 } ∧
    (hostWrite 0x00000 .word w s).flags = 0 ∧ (hostWrite 0x00000 .word w s).chunks = 0 ∧
    RegsKeptBut [.status, .flags, .chunks] s (hostWrite 0x00000 .word w s) ∧
    BytesKept s (hostWrite 0x00000 .word w s) ∧ NoLinkCall s (hostWrite 0x00000 .word w s) ∧
    SurroundingsKept s (hostWrite 0x00000 .word w s)) ∧
  (∀ s : State, (hostRead 0x00000 .word s).readData = some 0) ∧
  State.reset.engine = .idle

/-- A step of a running operation whose word decodes to i is exec of i, with the schedule's engine turn
taken off.
The schedule is log entry 8 (DESIGN CHOICE). -/
def Obligations.StepRunsDecodedOperation : Prop :=
  ∀ (s : State) (c : Ctx) (i : Instr), s.engine = .run c → decode c.word = .ok i →
    (s.schedule = [] → step s = exec i s) ∧
    (∀ rest, s.schedule = .engine :: rest → step s = exec i { s with schedule := rest })

/-- A word placed by withFetchWord runs at the very next step, as the operation the host's write of it
would have accepted.
That a placed word stands for a host's write is log entry 11 (DESIGN CHOICE). -/
def Obligations.FetchedWordRunsNext : Prop :=
  ∀ (s : State) (i : Instr),
    decodeTableWord 32 (encode i).toNat = some i ∧
    step (s.withFetchWord 32 (encode i).toNat) = exec i (accept (encode i) s)

/-- R195: an idle block holds all state through an engine turn, and only an accepted operation, a host
write to OP, wakes it.
That an idle engine has a turn is log entry 8 (DESIGN CHOICE). -/
def Obligations.IdleBlockHoldsState : Prop :=
  ∀ s t : State, s.engine = .idle → step s = .next t →
    (s.schedule = [] → t = s) ∧
    (∀ rest, s.schedule = .engine :: rest → t = { s with schedule := rest }) ∧
    (t.engine ≠ .idle → ∃ w rest, s.schedule = .host (.write 0x00000 .word w) :: rest ∧
      t.engine = .run { word := w, stage := .start, cursor := 0, target := 0 })

/-- R180: an engine step that leaves the engine RUN leaves STATUS alone; one that ends the operation
leaves BUSY 0, DONE 1 and LAST_OP, and an ERR that is the one before it or a code the operation can
raise (R181, R184). -/
def Obligations.OperationEndsWithItsErrors : Prop :=
  ∀ (i : Instr) (s t : State) (c : Ctx), s.engine = .run c → exec i s = .next t →
    (t.engine ≠ .idle → t.status = s.status) ∧
    (t.engine = .idle →
      t.status.busy = false ∧ t.status.done = true ∧ t.status.lastOp = s.status.lastOp ∧
      (t.status.err = s.status.err ∨ t.status.err ∈ errorsRaised i))

/-- R181, column "FLAGS bit": an operation that ends with an error code has that error's flags set. -/
def Obligations.ErrorCodeHasItsFlags : Prop :=
  ∀ (i : Instr) (s t : State) (c : Ctx), s.Inv → s.engine = .run c → decode c.word = .ok i →
    exec i s = .next t →
    (t.status.err = 0x02 → t.hasFlag .rangeErr = true) ∧
    (t.status.err = 0x03 → t.hasFlag .ioError = true ∧
      (i = .bulkWrite ∨ i = .send → t.hasFlag .shortWrite = true)) ∧
    (t.status.err = 0x04 → t.hasFlag .zeroXfer = true ∧ t.hasFlag .shortWrite = true) ∧
    (t.status.err = 0x05 → t.hasFlag .tooShort = true) ∧
    (t.status.err = 0x06 → t.hasFlag .badLen = true) ∧
    (t.status.err = 0x07 → t.hasFlag .shortPacket = true) ∧
    (t.status.err = 0x08 → t.hasFlag .crcChecked = true ∧ t.hasFlag .crcMismatch = true) ∧
    (t.status.err = 0x09 → t.hasFlag .ackFail = true ∧ t.hasFlag .shortWrite = true ∧
      (t.hasFlag .ioError = true ∨ t.hasFlag .zeroXfer = true))

/-- The "Flags written" line of every operation's rule: an engine step sets flags of that line only, in
FLAGS and STICKY alike, and clears none (00_scope.md R12, 10_state.md R25, R26). -/
def Obligations.EngineStepFlagsOnlyItsOwn : Prop :=
  ∀ (i : Instr) (s t : State), exec i s = .next t →
    ∃ fs, (∀ f ∈ fs, f ∈ flagsWritten i) ∧ FlagsAdded fs s t

/-- R22: "Result registers keep their value unless the rule of the running operation writes them"; no
operation writes an operand register but RX_COUNT (30_encoding.md R84). -/
def Obligations.EngineStepWritesOnlyItsRegisters : Prop :=
  ∀ (i : Instr) (s t : State), exec i s = .next t →
    RegsKeptBut (regsWritten i) s t ∧ SurroundingsKept s t

/-- R45: a buffer changes only under the operations whose rules write it, and SEND's chunk steps leave
TXBUF as its first step left it (41_bulk_transport.md R147). -/
def Obligations.EngineStepWritesOnlyItsBuffers : Prop :=
  ∀ (i : Instr) (s t : State), exec i s = .next t →
    (∀ b o, b ∉ buffersWritten i → (t.buffer b).read o = (s.buffer b).read o) ∧
    (i = .send → s.ctx.stage ≠ .start → BytesKept s t)

/-- R28: TRACE and QUIET have "no effect on any operation": a step of a state that differs only there
differs only there. -/
def Obligations.TraceAndQuietHaveNoEffect : Prop :=
  ∀ (i : Instr) (s : State) (c : BitVec 9), c.extractLsb' 0 4 = s.config.extractLsb' 0 4 →
    (∀ t, exec i s = .next t → exec i { s with config := c } = .next { t with config := c }) ∧
    (∀ f, exec i s = .fault f → exec i { s with config := c } = .fault f)

/-- R48: "No operation reads a flag as an input": from a state that differs only in FLAGS and STICKY an
operation does the same, up to FLAGS and STICKY. -/
def Obligations.FlagsAreNoInput : Prop :=
  ∀ (i : Instr) (s : State) (f : BitVec 17) (k : BitVec 19),
    (∀ t, exec i s = .next t → ∃ f' k', exec i { s with flags := f, sticky := k } =
      .next { t with flags := f', sticky := k' }) ∧
    (∀ x, exec i s = .fault x → exec i { s with flags := f, sticky := k } = .fault x)

/-! ### Reset (70_reset_and_hazards.md) -/

/-- R201: the reset value of every register, no operation pending, and every buffer byte a free value
of a draw of its own. -/
def Obligations.ResetValues : Prop :=
  (∀ (p : Config) (d : Nat) (sch : List Turn) (an : List LinkAnswer) (lg : List LinkEvent)
      (rd : Option Word),
    (State.afterReset p d sch an lg rd).engine = .idle ∧
    regValue (State.afterReset p d sch an lg rd) .config = 0x00000008 ∧
    regValue (State.afterReset p d sch an lg rd) .timeout = p.timeoutReset ∧
    regValue (State.afterReset p d sch an lg rd) .param0 = BitVec.ofNat 32 p.chunkMax ∧
    regValue (State.afterReset p d sch an lg rd) .param1 = BitVec.ofNat 32 p.m512 ∧
    (∀ r, r ∉ [Reg.config, .timeout, .param0, .param1] →
      regValue (State.afterReset p d sch an lg rd) r = 0) ∧
    (∀ o, (State.afterReset p d sch an lg rd).txbuf.read o = Config.freeByteAt d o ∧
      (State.afterReset p d sch an lg rd).rxbuf.read o = Config.freeByteAt (d + 1) o ∧
      (State.afterReset p d sch an lg rd).rxpkt.read o = Config.freeByteAt (d + 2) o)) ∧
  State.reset = State.afterReset Config.default 0 [] [] [] none

/-- R202: a reset at any moment, a running operation included, gives every register its reset value and
records no ERR; every buffer byte is a free value of a fresh draw (R201, log entry 2), nothing written
staying; the calls already made stay made; and a call in progress (the one the engine's next
step makes) leaves its bytes sent and its answer discarded.
That a reset is a turn of its own is log entry 10 (DESIGN CHOICE). -/
def Obligations.ResetAbandonsOperation : Prop :=
  ∀ (s t : State) (x : Turn) (rest : List Turn), s.schedule = x :: rest →
    x = .reset ∨ x = .resetInCall → step s = .next t →
    t.engine = .idle ∧ t.cfg = s.cfg ∧ t.schedule = rest ∧
    (∀ r, regValue t r = regValue (State.afterReset s.cfg 0 [] [] [] none) r) ∧
    (∀ b, (t.buffer b).cells = []) ∧
    t.draws = s.draws + 3 ∧
    (∀ o, t.txbuf.read o = Config.freeByteAt s.draws o ∧
      t.rxbuf.read o = Config.freeByteAt (s.draws + 1) o ∧
      t.rxpkt.read o = Config.freeByteAt (s.draws + 2) o) ∧
    (x = .reset → t.linkLog = s.linkLog ∧ t.answers = s.answers) ∧
    (x = .resetInCall → ∀ u, engineTurn { s with schedule := rest, answers := [] } = .next u →
      (u.linkLog = s.linkLog → t.linkLog = s.linkLog ∧ t.answers = s.answers) ∧
      (∀ ev, u.linkLog = ev :: s.linkLog →
        t.linkLog = discardAnswer ev :: s.linkLog ∧ t.answers = s.answers.tail))

/-- The invariant holds after every reset of a well-formed configuration, and the default one is.
What a well-formed configuration is beyond R6 is log entry 7 (DEDUCED). -/
def Obligations.ResetSatisfiesInvariant : Prop :=
  Config.default.WellFormed ∧ State.reset.Inv ∧
  ∀ (p : Config) (d : Nat) (sch : List Turn) (an : List LinkAnswer) (lg : List LinkEvent)
      (rd : Option Word), p.WellFormed → (State.afterReset p d sch an lg rd).Inv

/-- Every step that answers next keeps the invariant, from every state that has it.
What a well-formed configuration is beyond R6 is log entry 7 (DEDUCED). -/
def Obligations.StepKeepsInvariant : Prop :=
  ∀ s t : State, s.Inv → step s = .next t → t.Inv

/-- No step changes the configuration (00_scope.md R6, 10_state.md R44).
That State holds them is log entry 12 (DESIGN CHOICE). -/
def Obligations.StepKeepsConfiguration : Prop :=
  ∀ s t : State, step s = .next t → t.cfg = s.cfg

/-! ### Host accesses (10_state.md, 20_memory.md) -/

/-- R61 (with R60's map), while IDLE: an aligned 4-byte access in the register region is that register's,
a 1-byte access in a buffer window that byte's, and any other access only sets BAD_ACCESS and reads
as 0 (in either phase). R23: in either phase a read-only register ignores every write. -/
def Obligations.HostAccessFollowsMap : Prop :=
  ∀ (s : State) (a : Addr) (n : Width) (v : Word),
    (s.engine = .idle → ∀ r, a.toNat = regOffset r →
      hostRead a .word s = { s with readData := some (regValue s r) } ∧
      hostWrite a .word v s = regWrite r v s) ∧
    (∀ r, r ∈ [Reg.status, .flags, .resultCount, .txWireLen, .rxLen, .rxCmd, .rxCrc, .crcResult,
        .guardOut, .linkErr, .chunks, .param0, .param1] →
      regWrite r v s = s ∧ (a.toNat = regOffset r → hostWrite a .word v s = s)) ∧
    (s.engine = .idle → ∀ b o, o < s.cfg.bufSize → o < 0x10000 → a.toNat = bufBase b + o →
      hostRead a .byte s = { s with readData := some (((s.buffer b).read o).setWidth 32) } ∧
      ((hostWrite a .byte v s).buffer b).read o = v.extractLsb' 0 8 ∧
      BytesKeptBut b o 1 s (hostWrite a .byte v s) ∧ RegsKeptBut [] s (hostWrite a .byte v s) ∧
      (hostWrite a .byte v s).engine = .idle ∧ SurroundingsKept s (hostWrite a .byte v s) ∧
      NoLinkCall s (hostWrite a .byte v s)) ∧
    ((a.toNat < 0x100 ∧ (n ≠ .word ∨ a.toNat % 4 ≠ 0)) ∨ (0x100 ≤ a.toNat ∧ a.toNat < 0x10000) ∨
        (0x10000 ≤ a.toNat ∧ (n ≠ .byte ∨ s.cfg.bufSize ≤ a.toNat % 0x10000)) →
      hostRead a n s = { s with sticky := s.sticky ||| 0x40000, readData := some 0 } ∧
      hostWrite a n v s = { s with sticky := s.sticky ||| 0x40000 })

/-- The register map of R23: every register is at its offset, and no other offset is one. -/
def Obligations.RegisterMapIsExact : Prop :=
  (∀ r, regOfOffset (regOffset r) = some r ∧ regOffset r % 4 = 0 ∧ regOffset r ≤ 0x054) ∧
  (∀ o r, regOfOffset o = some r → o = regOffset r)

/-- R70: while RUN, writes to OP, CONFIG, the operand registers, RX_COUNT and buffers only set
BUSY_REJECT; a write to STICKY is performed; writes to read-only registers are ignored; the
registers R70 lists read their values, and FLAGS, the result registers and buffers return an
unspecified value: for these the statement holds whatever value is returned. -/
def Obligations.BusyBlockIsProtected : Prop :=
  ∀ s : State, s.running = true →
    (∀ r v, r ∈ [Reg.op, .config, .timeout, .txCmd, .txPlen, .xferLen, .guardW, .rxCount] →
      hostWrite (BitVec.ofNat 18 (regOffset r)) .word v s = { s with sticky := s.sticky ||| 0x20000 }) ∧
    (∀ b o v, o < s.cfg.bufSize → o < 0x10000 →
      hostWrite (BitVec.ofNat 18 (bufBase b + o)) .byte v s =
        { s with sticky := s.sticky ||| 0x20000 }) ∧
    (∀ v, hostWrite 0x0000C .word v s = { s with sticky := s.sticky &&& ~~~(v.setWidth 19) }) ∧
    (∀ r v, r ∈ [Reg.status, .flags, .resultCount, .txWireLen, .rxLen, .rxCmd, .rxCrc, .crcResult,
        .guardOut, .linkErr, .chunks, .param0, .param1] →
      hostWrite (BitVec.ofNat 18 (regOffset r)) .word v s = s) ∧
    (∀ r, r ∈ [Reg.status, .sticky, .config, .timeout, .txCmd, .txPlen, .xferLen, .guardW, .param0,
        .param1] →
      hostRead (BitVec.ofNat 18 (regOffset r)) .word s = { s with readData := some (regValue s r) }) ∧
    (∀ r, r ∈ [Reg.flags, .rxCount, .resultCount, .txWireLen, .rxLen, .rxCmd, .rxCrc, .crcResult,
        .guardOut, .linkErr, .chunks] →
      ∃ v, hostRead (BitVec.ofNat 18 (regOffset r)) .word s =
        { s with readData := some v, draws := s.draws + 1 }) ∧
    (∀ b o, o < s.cfg.bufSize → o < 0x10000 →
      ∃ v, hostRead (BitVec.ofNat 18 (bufBase b + o)) .byte s =
        { s with readData := some v, draws := s.draws + 1 }) ∧
    (∀ a v, a.toNat < 0x100 → 0x58 ≤ a.toNat → a.toNat % 4 = 0 →
      hostRead a .word s = { s with readData := some 0 } ∧ hostWrite a .word v s = s)

/-- R68: a read changes nothing but STICKY.BAD_ACCESS, and while the engine is idle a second read
returns the same value; a write other than to OP and STICKY has no further effect when repeated. -/
def Obligations.HostAccessesAreIdempotent : Prop :=
  ∀ (s : State) (a : Addr) (n : Width) (v : Word),
    (∀ t, t = hostRead a n s →
      t.engine = s.engine ∧ RegsKeptBut [.sticky] s t ∧ BytesKept s t ∧ t.cfg = s.cfg ∧
      t.schedule = s.schedule ∧ t.answers = s.answers ∧ t.linkLog = s.linkLog ∧
      t.sticky = (if placeOf s.cfg.bufSize a n = .bad then s.sticky ||| 0x40000 else s.sticky) ∧
      (s.engine = .idle → (hostRead a n t).readData = t.readData)) ∧
    (a.toNat ≠ 0x000 → a.toNat ≠ 0x00C →
      hostWrite a n v (hostWrite a n v s) = hostWrite a n v s)

/-- R26: STICKY bits 16:0 are set with the same FLAGS bits; accepting an operation clears none; bit 17 is
set by every write rejected because the engine runs, bit 18 by every access of a width or address
the block does not support; a host write clears exactly the bits written as 1, in either phase; bits
31:19 read 0; reset 0. -/
def Obligations.StickyIsWriteOneToClear : Prop :=
  (∀ (s : State) (f : Flag), FlagsAdded [f] s (s.flag f)) ∧
  (∀ (s : State) (w : Word), (accept w s).sticky = s.sticky) ∧
  (∀ (s : State) (r : Reg) (v : Word), s.running = true →
    r ∈ [Reg.op, .config, .timeout, .txCmd, .txPlen, .xferLen, .guardW, .rxCount] →
    (hostWrite (BitVec.ofNat 18 (regOffset r)) .word v s).hasSticky 17 = true) ∧
  (∀ (s : State) (b : Buf) (o : Nat) (v : Word), s.running = true → o < s.cfg.bufSize →
    o < 0x10000 → (hostWrite (BitVec.ofNat 18 (bufBase b + o)) .byte v s).hasSticky 17 = true) ∧
  (∀ (s : State) (a : Addr) (n : Width) (v : Word),
    (a.toNat < 0x100 ∧ (n ≠ .word ∨ a.toNat % 4 ≠ 0)) ∨ (0x100 ≤ a.toNat ∧ a.toNat < 0x10000) ∨
      (0x10000 ≤ a.toNat ∧ (n ≠ .byte ∨ s.cfg.bufSize ≤ a.toNat % 0x10000)) →
    (hostRead a n s).hasSticky 18 = true ∧ (hostWrite a n v s).hasSticky 18 = true) ∧
  (∀ (s : State) (v : Word),
    hostWrite 0x0000C .word v s = { s with sticky := (hostWrite 0x0000C .word v s).sticky } ∧
    ∀ i, i < 19 →
      (hostWrite 0x0000C .word v s).hasSticky i = (s.hasSticky i && !v.getLsbD i)) ∧
  (∀ s : State, regValue s .sticky &&& 0xFFF80000 = 0) ∧
  State.reset.sticky = 0

/-- R28: a write to CONFIG while IDLE stores CRC_MODE (3 stores 0), SHORT_ACCEPT, AUTO_ACK, TRACE and
QUIET, changes no other register, and its reserved bits read 0. -/
def Obligations.ConfigWriteStoresLegalMode : Prop :=
  ∀ (s : State) (v : Word), s.engine = .idle →
    (hostWrite 0x00010 .word v s).crcMode = (if v.toNat % 4 = 3 then 0 else v.toNat % 4) ∧
    (hostWrite 0x00010 .word v s).shortAccept = v.getLsbD 2 ∧
    (hostWrite 0x00010 .word v s).autoAck = v.getLsbD 3 ∧
    (hostWrite 0x00010 .word v s).trace = v.extractLsb' 4 4 ∧
    (hostWrite 0x00010 .word v s).quiet = v.getLsbD 8 ∧
    regValue (hostWrite 0x00010 .word v s) .config &&& 0xFFFFFE00 = 0 ∧
    RegsKeptBut [.config] s (hostWrite 0x00010 .word v s) ∧
    BytesKept s (hostWrite 0x00010 .word v s)

/-- R46: every reserved bit of every register's value is 0 and ignores writes; every reserved offset of
the register region reads 0, ignores writes and sets no STICKY bit, in either phase. A register's value
is what a host reads while IDLE: while an operation runs, a host read of FLAGS, RX_COUNT, RESULT_COUNT,
TX_WIRE_LEN, RX_LEN, CRC_RESULT or GUARD_OUT is free in all 32 bits, reserved ones included, log entry 3
(DESIGN CHOICE). -/
def Obligations.ReservedStateReadsZero : Prop :=
  (∀ (s : State) (a : Addr) (v : Word), a.toNat < 0x100 → 0x58 ≤ a.toNat → a.toNat % 4 = 0 →
    hostRead a .word s = { s with readData := some 0 } ∧ hostWrite a .word v s = s) ∧
  (∀ s : State,
    regValue s .status &&& 0xFF0000FC = 0 ∧ regValue s .flags &&& 0xFFFE0000 = 0 ∧
    regValue s .sticky &&& 0xFFF80000 = 0 ∧ regValue s .config &&& 0xFFFFFE00 = 0 ∧
    regValue s .txPlen &&& 0xFFFF0000 = 0 ∧ regValue s .xferLen &&& 0xFFFE0000 = 0 ∧
    regValue s .guardW &&& 0xFFFF0000 = 0 ∧ regValue s .rxCount &&& 0xFFFE0000 = 0 ∧
    regValue s .resultCount &&& 0xFFFE0000 = 0 ∧ regValue s .txWireLen &&& 0xFFFE0000 = 0 ∧
    regValue s .rxLen &&& 0xFFFF0000 = 0 ∧ regValue s .crcResult &&& 0xFFFF0000 = 0 ∧
    regValue s .guardOut &&& 0xFF000000 = 0) ∧
  (∀ (s : State) (v : Word),
    regWrite .config v s = regWrite .config (v &&& 0x000001FF) s ∧
    regWrite .sticky v s = regWrite .sticky (v &&& 0x0007FFFF) s ∧
    regWrite .txPlen v s = regWrite .txPlen (v &&& 0x0000FFFF) s ∧
    regWrite .xferLen v s = regWrite .xferLen (v &&& 0x0001FFFF) s ∧
    regWrite .guardW v s = regWrite .guardW (v &&& 0x0000FFFF) s ∧
    regWrite .rxCount v s = regWrite .rxCount (v &&& 0x0001FFFF) s)

/-- An accepted write to an operand register is read back whole in its field, and changes no other
register and no byte (R29-R34, R68). -/
def Obligations.OperandRegistersReadBack : Prop :=
  ∀ (s : State) (v : Word), s.engine = .idle →
    ∀ r mask, (r, mask) ∈ [(Reg.timeout, (0xFFFFFFFF : Word)), (.txCmd, 0xFFFFFFFF),
        (.txPlen, 0x0000FFFF), (.xferLen, 0x0001FFFF), (.guardW, 0x0000FFFF), (.rxCount, 0x0001FFFF)] →
      regValue (hostWrite (BitVec.ofNat 18 (regOffset r)) .word v s) r = v &&& mask ∧
      RegsKeptBut [r] s (hostWrite (BitVec.ofNat 18 (regOffset r)) .word v s) ∧
      BytesKept s (hostWrite (BitVec.ofNat 18 (regOffset r)) .word v s)

/-- R44: PARAM0 reads CHUNK_MAX and PARAM1 reads M512 in every state and phase, and both ignore
writes. -/
def Obligations.ParameterRegistersAreHardwired : Prop :=
  ∀ (s : State) (v : Word),
    (hostRead 0x00050 .word s).readData = some (BitVec.ofNat 32 s.cfg.chunkMax) ∧
    (hostRead 0x00054 .word s).readData = some (BitVec.ofNat 32 s.cfg.m512) ∧
    hostWrite 0x00050 .word v s = s ∧ hostWrite 0x00054 .word v s = s

/-! ### Codec primitives (40_packet_codec.md) -/

/-- R101: the four laws of the CRC under the default parameters.
The parameters are general knowledge in the spec, log entry 4 (PRESUMED). -/
def Obligations.CrcLaws : Prop :=
  crc16 Config.default [] = 0x0000 ∧
  crc16 Config.default [0x31, 0x32, 0x33, 0x34, 0x35, 0x36, 0x37, 0x38, 0x39] = 0xBB3D ∧
  (∀ (k : Nat) (s : List Byte),
    crc16 Config.default (List.replicate k 0 ++ s) = crc16 Config.default s) ∧
  (∀ s : List Byte, crc16 Config.default
    (s ++ [(crc16 Config.default s).extractLsb' 0 8, (crc16 Config.default s).extractLsb' 8 8]) = 0)

/-- R102: what the pair swap does to each byte, and its laws. -/
def Obligations.PairSwapLaws : Prop :=
  (∀ (s : List Byte) (i : Nat), 2 * i + 1 < s.length →
    (pairSwap s)[2 * i]? = s[2 * i + 1]? ∧ (pairSwap s)[2 * i + 1]? = s[2 * i]?) ∧
  (∀ s : List Byte, s.length % 2 = 1 → (pairSwap s)[s.length - 1]? = s[s.length - 1]?) ∧
  (∀ s : List Byte, pairSwap (pairSwap s) = s) ∧
  (∀ s : List Byte, (pairSwap s).length = s.length) ∧
  (∀ s t : List Byte, s.length % 2 = 0 → pairSwap (s ++ t) = pairSwap s ++ pairSwap t)

/-! ### Codec operations (40_packet_codec.md) -/

/-- R110: NOP ends at once; after its accept FLAGS and CHUNKS are 0 and STATUS is DONE with ERR 0, and
nothing else has changed. -/
def Obligations.NopOnlyRunsTheLifecycle : Prop :=
  decode 0x00000000 = .ok .nop ∧
  ∀ s : State,
    (∃ t, exec .nop s = .next t ∧ EndedNormally s t ∧ RegsKeptBut [.status] s t ∧ BytesKept s t ∧
      NoLinkCall s t ∧ SurroundingsKept s t) ∧
    (∃ t, exec .nop (accept 0x00000000 s) = .next t ∧ t.flags = 0 ∧ t.chunks = 0 ∧
      regValue t .status = 0x00000002 ∧ t.engine = .idle ∧
      RegsKeptBut [.status, .flags, .chunks] s t ∧ BytesKept s t ∧ NoLinkCall s t)

/-- R111: CRC writes the checksum of TXBUF[0..N) to CRC_RESULT and nothing else, or raises RANGE.
The example under the default CRC parameters rests on log entry 4 (PRESUMED). -/
def Obligations.CrcWritesChecksum : Prop :=
  decode 0x00000001 = .ok .crc ∧
  ∀ s : State,
    (s.xferCount ≤ s.cfg.bufSize → ∃ t, exec .crc s = .next t ∧ EndedNormally s t ∧
      regValue t .crcResult = (crc16 s.cfg (s.txbuf.bytes 0 s.xferCount)).setWidth 32 ∧
      RegsKeptBut [.status, .crcResult] s t ∧ BytesKept s t ∧ NoLinkCall s t ∧
      SurroundingsKept s t ∧
      (s.xferCount = 0 → t.crcResult = s.cfg.crcInit ^^^ s.cfg.crcXorout) ∧
      (s.cfg = Config.default → s.xferCount = 9 →
        s.txbuf.bytes 0 9 = [0x31, 0x32, 0x33, 0x34, 0x35, 0x36, 0x37, 0x38, 0x39] →
        regValue t .crcResult = 0x0000BB3D)) ∧
    (s.cfg.bufSize < s.xferCount → ∃ t, exec .crc s = .next t ∧ EndedWith 0x02 s t ∧
      FlagsAdded [.rangeErr] s t ∧ RegsKeptBut [.status, .flags, .sticky] s t ∧ BytesKept s t ∧
      NoLinkCall s t ∧ SurroundingsKept s t)

/-- R112: SWAP swaps TXBUF[0..N) in place and changes no other byte, or raises RANGE; twice with the
same N restores TXBUF. -/
def Obligations.SwapSwapsPrefixInPlace : Prop :=
  decode 0x00000002 = .ok .swap ∧
  ∀ s : State,
    (s.xferCount ≤ s.cfg.bufSize → ∃ t, exec .swap s = .next t ∧ EndedNormally s t ∧
      t.txbuf.bytes 0 s.xferCount = pairSwap (s.txbuf.bytes 0 s.xferCount) ∧
      BytesKeptBut .txbuf 0 s.xferCount s t ∧ RegsKeptBut [.status] s t ∧ NoLinkCall s t ∧
      SurroundingsKept s t ∧
      (s.xferCount ≤ 1 → BytesKept s t) ∧
      (∃ u, exec .swap t = .next u ∧ BytesKept s u) ∧
      (s.xferCount = 5 → s.txbuf.bytes 0 5 = [0x01, 0x02, 0x03, 0x04, 0x05] →
        t.txbuf.bytes 0 5 = [0x02, 0x01, 0x04, 0x03, 0x05])) ∧
    (s.cfg.bufSize < s.xferCount → ∃ t, exec .swap s = .next t ∧ EndedWith 0x02 s t ∧
      FlagsAdded [.rangeErr] s t ∧ RegsKeptBut [.status, .flags, .sticky] s t ∧ BytesKept s t ∧
      NoLinkCall s t ∧ SurroundingsKept s t)

/-- R103, R113: ENCODE leaves the packet image of (cmd, payload) in TXBUF[0..L), the pad byte at L where
L is odd, T in TX_WIRE_LEN, and every other byte as it was; or it raises RANGE.
What a well-formed configuration is beyond R6 is log entry 7 (DEDUCED).
The example under the default CRC parameters rests on log entry 4 (PRESUMED). -/
def Obligations.EncodeBuildsPacketImage : Prop :=
  decode 0x00000003 = .ok .encode ∧
  ∀ s : State, s.cfg.WellFormed →
    (s.payloadLen ≤ s.cfg.maxPayload → ∃ t, exec .encode s = .next t ∧ EndedNormally s t ∧
      t.txbuf.bytes 0 (8 + s.payloadLen) =
        packetImage s.cfg s.txCmd (s.txbuf.bytes 8 s.payloadLen) ∧
      (s.payloadLen % 2 = 1 → t.txbuf.read (8 + s.payloadLen) = s.cfg.padValue) ∧
      (∀ o, 8 ≤ o → ¬(s.payloadLen % 2 = 1 ∧ o = 8 + s.payloadLen) →
        t.txbuf.read o = s.txbuf.read o) ∧
      OtherBuffersKept .txbuf s t ∧
      (regValue t .txWireLen).toNat = roundEven (8 + s.payloadLen) ∧
      RegsKeptBut [.status, .txWireLen] s t ∧ NoLinkCall s t ∧ SurroundingsKept s t ∧
      (s.cfg = Config.default → s.txCmd = 0x00000002 → s.payloadLen = 0 →
        t.txbuf.bytes 0 8 = [0x00, 0x08, 0xC1, 0x81, 0x00, 0x00, 0x00, 0x02])) ∧
    (s.cfg.maxPayload < s.payloadLen → ∃ t, exec .encode s = .next t ∧ EndedWith 0x02 s t ∧
      FlagsAdded [.rangeErr] s t ∧ RegsKeptBut [.status, .flags, .sticky] s t ∧ BytesKept s t ∧
      NoLinkCall s t ∧ SurroundingsKept s t)

/-- R105, R114: everything DECODE does, case by case: RANGE, TOO_SHORT, and from 8 bytes on the
recovered window, the header registers, and the verdict by declared length, SHORT_ACCEPT and
CRC_MODE.
What a well-formed configuration is beyond R6 is log entry 7 (DEDUCED). -/
def Obligations.DecodeGivesTheVerdict : Prop :=
  decode 0x00000004 = .ok .decode ∧
  ∀ s : State, s.cfg.WellFormed → ∃ t, exec .decode s = .next t ∧ NoLinkCall s t ∧
    SurroundingsKept s t ∧ OtherBuffersKept .rxpkt s t ∧
    (s.cfg.bufSize < s.rxLength → EndedWith 0x02 s t ∧ FlagsAdded [.rangeErr] s t ∧
      RegsKeptBut [.status, .flags, .sticky] s t ∧ BytesKept s t) ∧
    (s.rxLength ≤ s.cfg.bufSize → s.rxLength < 8 → EndedWith 0x05 s t ∧
      FlagsAdded [.tooShort] s t ∧ RegsKeptBut [.status, .flags, .sticky] s t ∧ BytesKept s t) ∧
    (s.rxLength ≤ s.cfg.bufSize → 8 ≤ s.rxLength →
      ∀ n d img early, n = s.rxLength →
      d = (s.rxbuf.read 0).toNat + 256 * (s.rxbuf.read 1).toNat →
      img = pairSwap (s.rxbuf.bytes 0 (min (max (roundEven d) 8) n)) →
      early = (if s.rxbuf.bytes 4 4 = wireCmd s.cfg.cmdFileData then [Flag.earlyFileData] else []) →
      (∀ o, t.rxpkt.read o = img.getD o 0) ∧
      (regValue t .rxLen).toNat = d ∧ regValue t .rxCmd = rdBe32 img 4 ∧
      t.rxCrcEmbedded = rdBe16 img 2 ∧
      RegsKeptBut [.status, .flags, .sticky, .rxLen, .rxCmd, .rxCrc] s t ∧
      (d < 8 → EndedWith 0x06 s t ∧ FlagsAdded (early ++ [.badLen]) s t ∧ t.rxCrcComputed = 0) ∧
      (8 ≤ d → n < d → s.shortAccept = false → EndedWith 0x07 s t ∧
        FlagsAdded (early ++ [.shortPacket]) s t ∧ t.rxCrcComputed = 0) ∧
      (8 ≤ d → n < d → s.shortAccept = true → EndedNormally s t ∧
        FlagsAdded (early ++ [.shortPacket, .rxValid]) s t ∧ t.rxCrcComputed = 0) ∧
      (8 ≤ d → d ≤ n → s.crcMode = 1 → EndedNormally s t ∧
        FlagsAdded (early ++ [.rxValid]) s t ∧ t.rxCrcComputed = 0) ∧
      (8 ≤ d → d ≤ n → s.crcMode ≠ 1 →
        ∀ c, c = crc16 s.cfg ((img.drop 4).take (d - 4)) →
        t.rxCrcComputed = c ∧
        (c = rdBe16 img 2 → EndedNormally s t ∧
          FlagsAdded (early ++ [.crcChecked, .rxValid]) s t) ∧
        (c ≠ rdBe16 img 2 → s.crcMode = 2 → EndedWith 0x08 s t ∧
          FlagsAdded (early ++ [.crcChecked, .crcMismatch]) s t) ∧
        (c ≠ rdBe16 img 2 → s.crcMode ≠ 2 → EndedNormally s t ∧
          FlagsAdded (early ++ [.crcChecked, .crcMismatch, .rxValid]) s t)))

/-- R106: the early recognition reads the raw wire bytes, is flagged by DECODE even where the packet is
then rejected, and for n ≥ 8 is true exactly when the RX_CMD reported is CMD_FILE_DATA.
What a well-formed configuration is beyond R6 is log entry 7 (DEDUCED). -/
def Obligations.EarlyFileDataMatchesCommand : Prop :=
  ∀ s t : State, s.cfg.WellFormed → s.rxLength ≤ s.cfg.bufSize → s.hasFlag .earlyFileData = false →
    exec .decode s = .next t →
    (t.hasFlag .earlyFileData = true ↔ 8 ≤ s.rxLength ∧
      s.rxbuf.bytes 4 4 = [s.cfg.cmdFileData.extractLsb' 16 8, s.cfg.cmdFileData.extractLsb' 24 8,
        s.cfg.cmdFileData.extractLsb' 0 8, s.cfg.cmdFileData.extractLsb' 8 8]) ∧
    (8 ≤ s.rxLength → (t.hasFlag .earlyFileData = true ↔ t.rxCmd = s.cfg.cmdFileData))

/-- R89: the first eight wire bytes of an encoded packet, the declared length as raw wire bytes show it,
and the raw form of `cmd`.
What a well-formed configuration is beyond R6 is log entry 7 (DEDUCED). -/
def Obligations.HeaderOnTheWire : Prop :=
  ∀ s t : State, s.cfg.WellFormed → s.payloadLen ≤ s.cfg.maxPayload → exec .encode s = .next t →
    ∀ (l : BitVec 16) (crc : BitVec 16), l = BitVec.ofNat 16 (8 + s.payloadLen) →
    crc = crc16 s.cfg (be32 s.txCmd ++ s.txbuf.bytes 8 s.payloadLen) →
    (wireImage t (roundEven (8 + s.payloadLen))).take 8 =
      [l.extractLsb' 0 8, l.extractLsb' 8 8, crc.extractLsb' 0 8, crc.extractLsb' 8 8,
       s.txCmd.extractLsb' 16 8, s.txCmd.extractLsb' 24 8, s.txCmd.extractLsb' 0 8,
       s.txCmd.extractLsb' 8 8] ∧
    (byteAt (wireImage t (roundEven (8 + s.payloadLen))) 0).toNat +
      256 * (byteAt (wireImage t (roundEven (8 + s.payloadLen))) 1).toNat = 8 + s.payloadLen

/-- R108, the round trip: what ENCODE builds from (cmd, payload), placed on the wire and received whole,
DECODE accepts in every CRC mode and gives back cmd and payload.
What a well-formed configuration is beyond R6 is log entry 7 (DEDUCED). -/
def Obligations.EncodeThenDecodeRoundTrip : Prop :=
  ∀ s : State, s.cfg.WellFormed → s.payloadLen ≤ s.cfg.maxPayload →
    ∃ t, exec .encode s = .next t ∧
    ∀ u : State, u.cfg = s.cfg → u.flags = 0 → u.rxCount = t.txWireLen →
      u.rxbuf.bytes 0 t.txWireLen.toNat = wireImage t t.txWireLen.toNat →
      ∃ v, exec .decode u = .next v ∧ EndedNormally u v ∧ v.hasFlag .rxValid = true ∧
        v.hasFlag .crcMismatch = false ∧ v.rxCmd = s.txCmd ∧ v.rxLen.toNat = 8 + s.payloadLen ∧
        v.rxpkt.bytes 8 s.payloadLen = s.txbuf.bytes 8 s.payloadLen ∧
        (u.crcMode ≠ 1 → v.rxCrcComputed = v.rxCrcEmbedded)

/-! ### Bulk transport (41_bulk_transport.md) -/

/-- The first step of BULK_WRITE (R145, R140, R142): RANGE; N = 0 ends at once with the 512 warning and
no call; otherwise the 512 test and the first chunk call, and what its answer leads to.
What a well-formed configuration is beyond R6 is log entry 7 (DEDUCED). -/
def Obligations.BulkWriteFirstStep : Prop :=
  ∀ (s : State) (c : Ctx), s.cfg.WellFormed → s.engine = .run c → c.stage = .start →
    (s.cfg.bufSize < s.xferCount → ∃ t, exec .bulkWrite s = .next t ∧ EndedWith 0x02 s t ∧
      FlagsAdded [.rangeErr] s t ∧ RegsKeptBut [.status, .flags, .sticky] s t ∧ BytesKept s t ∧
      NoLinkCall s t ∧ SurroundingsKept s t) ∧
    (s.xferCount = 0 → ∃ t, exec .bulkWrite s = .next t ∧ EndedNormally s t ∧
      FlagsAdded [.m512Warn] s t ∧ t.resultCount = 0 ∧
      RegsKeptBut [.status, .flags, .sticky, .resultCount] s t ∧ BytesKept s t ∧
      NoLinkCall s t ∧ SurroundingsKept s t) ∧
    (0 < s.xferCount → s.xferCount ≤ s.cfg.bufSize → ∀ a rest n, s.answers = .write a :: rest →
      n = min s.cfg.chunkMax s.xferCount → writeWithin n a = true →
      ∃ t, exec .bulkWrite s = .next t ∧
        CallMade (.write s.cfg.epOut (s.txbuf.bytes 0 n) s.timeout (some a)) rest s t ∧
        WriteOutcome c.word 0 s.xferCount a (warnFlags s s.xferCount) s t ∧
        RegsKeptBut [.status, .flags, .sticky, .resultCount, .linkErr, .chunks] s t ∧
        BytesKept s t ∧ SurroundingsKept s t)

/-- A chunk step of BULK_WRITE (R140, R145): the next chunk starts at the first unsent byte of TXBUF, is
as large as CHUNK_MAX and the rest allow, and its answer decides what follows. -/
def Obligations.BulkWriteChunkStep : Prop :=
  ∀ (s : State) (c : Ctx) (a : WriteAnswer) (rest : List LinkAnswer) (n : Nat),
    s.engine = .run c → c.stage = .chunk → c.cursor < c.target → s.answers = .write a :: rest →
    n = min s.cfg.chunkMax (c.target - c.cursor) → writeWithin n a = true →
    ∃ t, exec .bulkWrite s = .next t ∧
      CallMade (.write s.cfg.epOut (s.txbuf.bytes c.cursor n) s.timeout (some a)) rest s t ∧
      WriteOutcome c.word c.cursor c.target a [] s t ∧
      RegsKeptBut [.status, .flags, .sticky, .resultCount, .linkErr, .chunks] s t ∧
      BytesKept s t ∧ SurroundingsKept s t

/-- The first step of BULK_READ (R146, R141): RANGE; N = 0 ends at once with no call; otherwise the first
chunk call, and what its answer leads to.
What a well-formed configuration is beyond R6 is log entry 7 (DEDUCED). -/
def Obligations.BulkReadFirstStep : Prop :=
  ∀ (s : State) (c : Ctx), s.cfg.WellFormed → s.engine = .run c → c.stage = .start →
    (s.cfg.bufSize < s.xferCount → ∃ t, exec .bulkRead s = .next t ∧ EndedWith 0x02 s t ∧
      FlagsAdded [.rangeErr] s t ∧ RegsKeptBut [.status, .flags, .sticky] s t ∧ BytesKept s t ∧
      NoLinkCall s t ∧ SurroundingsKept s t) ∧
    (s.xferCount = 0 → ∃ t, exec .bulkRead s = .next t ∧ EndedNormally s t ∧ FlagsAdded [] s t ∧
      t.rxCount = 0 ∧ t.resultCount = 0 ∧ RegsKeptBut [.status, .rxCount, .resultCount] s t ∧
      BytesKept s t ∧ NoLinkCall s t ∧ SurroundingsKept s t) ∧
    (0 < s.xferCount → s.xferCount ≤ s.cfg.bufSize → ∀ a rest n, s.answers = .read a :: rest →
      n = min s.cfg.chunkMax s.xferCount → readWithin n a = true →
      ∃ t, exec .bulkRead s = .next t ∧
        CallMade (.read s.cfg.epIn n s.timeout (some a)) rest s t ∧
        ReadOutcome c.word 0 s.xferCount n a s t ∧
        RegsKeptBut [.status, .flags, .sticky, .rxCount, .resultCount, .linkErr, .chunks] s t ∧
        SurroundingsKept s t)

/-- A chunk step of BULK_READ (R141, R146): the bytes are stored at increasing offsets from the count
read so far, and a short chunk ends the read. -/
def Obligations.BulkReadChunkStep : Prop :=
  ∀ (s : State) (c : Ctx) (a : ReadAnswer) (rest : List LinkAnswer) (n : Nat),
    s.engine = .run c → c.stage = .chunk → c.cursor < c.target → s.answers = .read a :: rest →
    n = min s.cfg.chunkMax (c.target - c.cursor) → readWithin n a = true →
    ∃ t, exec .bulkRead s = .next t ∧
      CallMade (.read s.cfg.epIn n s.timeout (some a)) rest s t ∧
      ReadOutcome c.word c.cursor c.target n a s t ∧
      RegsKeptBut [.status, .flags, .sticky, .rxCount, .resultCount, .linkErr, .chunks] s t ∧
      SurroundingsKept s t

/-- The first step of SEND (R147): RANGE with nothing sent and TXBUF unchanged; otherwise the packet image
in TXBUF as ENCODE builds it, the 512 test on T, and the first chunk of the wire image offered.
What a well-formed configuration is beyond R6 is log entry 7 (DEDUCED). -/
def Obligations.SendFirstStep : Prop :=
  ∀ (s : State) (c : Ctx), s.cfg.WellFormed → s.engine = .run c → c.stage = .start →
    (s.cfg.maxPayload < s.payloadLen → ∃ t, exec .send s = .next t ∧ EndedWith 0x02 s t ∧
      FlagsAdded [.rangeErr] s t ∧ RegsKeptBut [.status, .flags, .sticky] s t ∧ BytesKept s t ∧
      NoLinkCall s t ∧ SurroundingsKept s t) ∧
    (s.payloadLen ≤ s.cfg.maxPayload → ∀ a rest n total, s.answers = .write a :: rest →
      total = roundEven (8 + s.payloadLen) → n = min s.cfg.chunkMax total →
      writeWithin n a = true →
      ∃ e t, exec .encode s = .next e ∧ exec .send s = .next t ∧
        (∀ b o, (t.buffer b).read o = (e.buffer b).read o) ∧ t.txWireLen = e.txWireLen ∧
        CallMade (.write s.cfg.epOut ((wireImage e total).take n) s.timeout (some a)) rest s t ∧
        WriteOutcome c.word 0 total a (warnFlags s total) s t ∧
        RegsKeptBut [.status, .flags, .sticky, .txWireLen, .resultCount, .linkErr, .chunks] s t ∧
        SurroundingsKept s t)

/-- A chunk step of SEND (R147, R140): the next chunk of the wire image of what TXBUF holds, TXBUF itself
unchanged. -/
def Obligations.SendChunkStep : Prop :=
  ∀ (s : State) (c : Ctx) (a : WriteAnswer) (rest : List LinkAnswer) (n : Nat),
    s.engine = .run c → c.stage = .chunk → c.cursor < c.target → s.answers = .write a :: rest →
    n = min s.cfg.chunkMax (c.target - c.cursor) → writeWithin n a = true →
    ∃ t, exec .send s = .next t ∧
      CallMade (.write s.cfg.epOut (((wireImage s c.target).drop c.cursor).take n) s.timeout (some a))
        rest s t ∧
      WriteOutcome c.word c.cursor c.target a [] s t ∧
      RegsKeptBut [.status, .flags, .sticky, .resultCount, .linkErr, .chunks] s t ∧
      BytesKept s t ∧ SurroundingsKept s t

/-- A read step of RECV, its first step included (R148, R141, R144): an error ends it with neither
acknowledgement nor validation; a full chunk with bytes left goes on; the end of the read either
starts the acknowledgement, nothing validated yet, or ends exactly as DECODE would on the bytes
received. Under a configuration whose RX_READ_LEN is 0 it asks for nothing and ends TOO_SHORT.
What a well-formed configuration is beyond R6 is log entry 7 (DEDUCED). -/
def Obligations.RecvReadStep : Prop :=
  (∀ (s : State) (c : Ctx), s.cfg.WellFormed → s.engine = .run c → c.stage = .start →
    s.cfg.rxReadLen = 0 → ∃ t, exec .recv s = .next t ∧ EndedWith 0x05 s t ∧
      FlagsAdded [.tooShort] s t ∧ t.rxCount = 0 ∧ t.resultCount = 0 ∧
      RegsKeptBut [.status, .flags, .sticky, .rxCount, .resultCount] s t ∧ BytesKept s t ∧
      NoLinkCall s t ∧ SurroundingsKept s t) ∧
  ∀ (s : State) (c : Ctx) (got n : Nat) (a : ReadAnswer) (rest : List LinkAnswer),
    s.cfg.WellFormed → s.engine = .run c →
    (c.stage = .start ∧ got = 0) ∨ (c.stage = .chunk ∧ got = c.cursor ∧ c.target = s.cfg.rxReadLen) →
    got < s.cfg.rxReadLen → s.answers = .read a :: rest →
    n = min s.cfg.chunkMax (s.cfg.rxReadLen - got) → readWithin n a = true →
    ∃ t, exec .recv s = .next t ∧
      CallMade (.read s.cfg.epIn n s.timeout (some a)) rest s t ∧ SurroundingsKept s t ∧
      (∀ e, a = .err e → EndedWith 0x03 s t ∧ t.linkErr = e ∧ t.rxCount = BitVec.ofNat 17 got ∧
        t.resultCount = BitVec.ofNat 17 got ∧ FlagsAdded [.ioError] s t ∧ BytesKept s t ∧
        RegsKeptBut [.status, .flags, .sticky, .rxCount, .resultCount, .linkErr, .chunks] s t) ∧
      (∀ bs, a = .ok bs →
        t.rxbuf.bytes got bs.length = bs ∧
        (∀ o, o < got ∨ got + bs.length ≤ o → t.rxbuf.read o = s.rxbuf.read o) ∧
        (bs.length = n → got + bs.length < s.cfg.rxReadLen →
          t.engine = .run { word := c.word, stage := .chunk, cursor := got + bs.length,
                            target := s.cfg.rxReadLen } ∧
          t.status = s.status ∧ FlagsAdded [] s t ∧ BytesKeptBut .rxbuf got bs.length s t ∧
          RegsKeptBut [.chunks] s t) ∧
        (bs.length < n ∨ s.cfg.rxReadLen ≤ got + bs.length →
          ∀ u, u = { (if bs.length < n then s.flag .shortRead else s) with
              rxbuf := s.rxbuf.write got bs
              rxCount := BitVec.ofNat 17 (got + bs.length)
              resultCount := BitVec.ofNat 17 (got + bs.length)
              chunks := s.chunks + 1
              linkLog := .read s.cfg.epIn n s.timeout (some a) :: s.linkLog
              answers := rest } →
          (8 ≤ got + bs.length → u.rxbuf.bytes 4 4 = wireCmd s.cfg.cmdFileData → s.autoAck = true →
            t.engine = .run { word := c.word, stage := .ackChunk, cursor := 0, target := 8 } ∧
            t.status = s.status ∧
            FlagsAdded (.earlyFileData :: warnFlags s 8) u t ∧ BytesKept u t ∧
            RegsKeptBut [.flags, .sticky] u t) ∧
          (¬(8 ≤ got + bs.length ∧ u.rxbuf.bytes 4 4 = wireCmd s.cfg.cmdFileData ∧
              s.autoAck = true) →
            exec .decode u = .next t)))

/-- A step of RECV's acknowledgement loop (R148, R149, R144): the next bytes of ACK_WIRE are offered; while
bytes are left and the link takes some, the loop goes on; at its end ACK_SENT or ACK_FAIL is flagged
and the packet validated, whose error, if any, comes before ERR ACK. -/
def Obligations.RecvAckStep : Prop :=
  ∀ (s : State) (c : Ctx) (a : WriteAnswer) (rest : List LinkAnswer) (n : Nat),
    s.engine = .run c → c.stage = .ackChunk → c.cursor < 8 → c.target = 8 →
    s.answers = .write a :: rest → n = min s.cfg.chunkMax (8 - c.cursor) → writeWithin n a = true →
    ∃ t, exec .recv s = .next t ∧
      CallMade (.write s.cfg.epOut (((ackWire s.cfg).drop c.cursor).take n) s.timeout (some a)) rest s t ∧
      t.resultCount = s.resultCount ∧ t.rxCount = s.rxCount ∧ SurroundingsKept s t ∧
      OtherBuffersKept .rxpkt s t ∧
      (∀ k, a = .ok k → 0 < k → c.cursor + k < 8 →
        t.engine = .run { word := c.word, stage := .ackChunk, cursor := c.cursor + k, target := 8 } ∧
        t.status = s.status ∧ FlagsAdded [] s t ∧ BytesKept s t ∧ RegsKeptBut [.chunks] s t) ∧
      (∀ k, a = .ok k → 8 ≤ c.cursor + k →
        ∃ fs, FlagsAdded (.ackSent :: fs) s t ∧ FlagsAdded fs s (validate s.rxLength s).1 ∧
          t.rxpkt = (validate s.rxLength s).1.rxpkt ∧
          t.rxLen = (validate s.rxLength s).1.rxLen ∧ t.rxCmd = (validate s.rxLength s).1.rxCmd ∧
          t.rxCrcEmbedded = (validate s.rxLength s).1.rxCrcEmbedded ∧
          t.rxCrcComputed = (validate s.rxLength s).1.rxCrcComputed ∧
          ((validate s.rxLength s).2 = none → EndedNormally s t) ∧
          (∀ e, (validate s.rxLength s).2 = some e → EndedWith e.code s t)) ∧
      (∀ e, a = .err e → t.linkErr = e) ∧ (∀ k, a = .ok k → t.linkErr = s.linkErr) ∧
      (a = .ok 0 ∨ (∃ e, a = .err e) →
        ∃ fs, FlagsAdded ([.ackFail, .shortWrite, if a = .ok 0 then .zeroXfer else .ioError] ++ fs) s t ∧
          FlagsAdded fs s (validate s.rxLength s).1 ∧
          t.rxpkt = (validate s.rxLength s).1.rxpkt ∧
          t.rxLen = (validate s.rxLength s).1.rxLen ∧ t.rxCmd = (validate s.rxLength s).1.rxCmd ∧
          t.rxCrcEmbedded = (validate s.rxLength s).1.rxCrcEmbedded ∧
          t.rxCrcComputed = (validate s.rxLength s).1.rxCrcComputed ∧
          ((validate s.rxLength s).2 = none → EndedWith 0x09 s t) ∧
          (∀ e, (validate s.rxLength s).2 = some e → EndedWith e.code s t))

/-- R149: the acknowledgement packet, its bytes under the default parameters, and that RECV touches
neither TXBUF nor TX_CMD, TX_PLEN, TX_WIRE_LEN.
The default values are log entries 4 and 5 (PRESUMED). -/
def Obligations.AcknowledgementPacket : Prop :=
  (∀ p : Config, ackImage p = be16 8 ++ be16 (crc16 p (be32 p.cmdSuccess)) ++ be32 p.cmdSuccess ∧
    ackWire p = pairSwap (ackImage p) ∧ (ackWire p).length = 8) ∧
  ackImage Config.default = [0x00, 0x08, 0xC1, 0x81, 0x00, 0x00, 0x00, 0x02] ∧
  ackWire Config.default = [0x08, 0x00, 0x81, 0xC1, 0x00, 0x00, 0x02, 0x00] ∧
  (∀ s t : State, exec .recv s = .next t →
    t.txCmd = s.txCmd ∧ t.txPlen = s.txPlen ∧ t.txWireLen = s.txWireLen ∧
    ∀ o, t.txbuf.read o = s.txbuf.read o)

/-- R43, R67, R73: an engine step makes at most one link call, of at most CHUNK_MAX bytes, on the right
endpoint and with the TIMEOUT register; CHUNKS counts it, and accept and reset clear CHUNKS. -/
def Obligations.EngineStepMakesAtMostOneCall : Prop :=
  (∀ (i : Instr) (s t : State), exec i s = .next t →
    (t.linkLog = s.linkLog ∧ t.chunks = s.chunks ∧ t.answers = s.answers) ∨
    (i ∈ [Instr.bulkWrite, .bulkRead, .send, .recv] ∧
      ∃ ev, t.linkLog = ev :: s.linkLog ∧ t.chunks = s.chunks + 1 ∧ CallInContract s ev)) ∧
  (∀ (s : State) (w : Word), (accept w s).chunks = 0) ∧ State.reset.chunks = 0

/-- R21, R143: where no answer is listed, every operation's step answers next, whatever the free answer
is; the model never refuses, and a step, in any stage, stops exactly where it makes a chunk call and
the next listed answer is outside that call's contract: the engine then has no step. For a chunk stage
the calls are written out too.
That answers are listed data is log entry 1 (DESIGN CHOICE). -/
def Obligations.OnlyAnswersOutsideContractStop : Prop :=
  ∀ (i : Instr) (s : State),
    (s.answers = [] → ∃ t, exec i s = .next t) ∧
    ((∃ t, exec i s = .next t) ∨ (exec i s = .fault .linkContract ∧
      i ∈ [Instr.bulkWrite, .bulkRead, .send, .recv])) ∧
    (∀ c, s.engine = .run c → c.stage = .chunk → c.cursor < c.target →
      (i = .bulkWrite ∨ i = .send →
        (exec i s = .fault .linkContract ↔
          (∃ k rest, s.answers = .write (.ok k) :: rest ∧
            min s.cfg.chunkMax (c.target - c.cursor) < k) ∨
          (∃ b rest, s.answers = .read b :: rest))) ∧
      (i = .bulkRead ∨ i = .recv →
        (exec i s = .fault .linkContract ↔
          (∃ bs rest, s.answers = .read (.ok bs) :: rest ∧
            min s.cfg.chunkMax (c.target - c.cursor) < bs.length) ∨
          (∃ b rest, s.answers = .write b :: rest)))) ∧
    (exec i s = .fault .linkContract ↔ ∃ call a rest,
      chunkCall i s = some call ∧ s.answers = a :: rest ∧ call.rejects a = true)

/-- R210, R150: every engine step of a running operation uses up some of its remaining work, so every
operation ends, if the link answers each call. -/
def Obligations.EngineStepsRunOut : Prop :=
  ∀ (s t : State) (c : Ctx), s.Inv → s.engine = .run c → engineTurn s = .next t →
    engineWork t < engineWork s

/-- R150: with a link that takes whole chunks, a BULK_WRITE of N bytes makes ceil(N / CHUNK_MAX) calls,
which together move exactly TXBUF[0..N) in order, and ends with RESULT_COUNT = N.
What a well-formed configuration is beyond R6 is log entry 7 (DEDUCED). -/
def Obligations.WholeChunkWriteMovesEveryByte : Prop :=
  ∀ (s : State) (w : Word) (m : Nat), s.cfg.WellFormed → 0 < s.xferCount →
    s.xferCount ≤ s.cfg.bufSize → m = (s.xferCount + s.cfg.chunkMax - 1) / s.cfg.chunkMax →
    s.engine = .run { word := w, stage := .start, cursor := 0, target := 0 } →
    decode w = .ok .bulkWrite → s.schedule = [] →
    s.answers = wholeChunks s.cfg.chunkMax s.xferCount s.xferCount →
    ∃ t calls, Sys2Proof.core.run m s = .next t ∧ EndedNormally s t ∧
      t.linkLog = calls ++ s.linkLog ∧ calls.length = m ∧
      (calls.reverse.map bytesTaken).flatten = s.txbuf.bytes 0 s.xferCount ∧
      t.resultCount.toNat = s.xferCount ∧ t.answers = [] ∧ BytesKept s t

/-! ### The guard (42_boundary_guard.md) -/

/-- R171, R172: GUARD shrinks a chunk whose packet would hit a 512 multiple, tells the bytes to rewind and
flags the hit, changes nothing else, and raises RANGE above GUARD_MAX_W.
What a well-formed configuration is beyond R6 is log entry 7 (DEDUCED). -/
def Obligations.GuardAdjustsChunk : Prop :=
  decode 0x00000009 = .ok .guard ∧
  ∀ s : State, s.cfg.WellFormed →
    (s.guardInput ≤ s.cfg.guardMaxW →
      (roundEven (s.cfg.guardOverhead + s.guardInput)) % s.cfg.m512 = 0 →
      ∃ t, exec .guard s = .next t ∧ EndedNormally s t ∧ s.cfg.guardShrink ≤ s.guardInput ∧
        t.guardWAdj.toNat = s.guardInput - s.cfg.guardShrink ∧
        t.guardRewind.toNat = s.cfg.guardShrink ∧ FlagsAdded [.guardHit] s t ∧
        RegsKeptBut [.status, .flags, .sticky, .guardOut] s t ∧ BytesKept s t ∧ NoLinkCall s t ∧
        SurroundingsKept s t ∧
        (s.cfg = Config.default → s.guardInput = 496 → regValue t .guardOut = 0x000401EC)) ∧
    (s.guardInput ≤ s.cfg.guardMaxW →
      (roundEven (s.cfg.guardOverhead + s.guardInput)) % s.cfg.m512 ≠ 0 →
      ∃ t, exec .guard s = .next t ∧ EndedNormally s t ∧ t.guardWAdj.toNat = s.guardInput ∧
        t.guardRewind = 0 ∧ FlagsAdded [] s t ∧ RegsKeptBut [.status, .guardOut] s t ∧
        BytesKept s t ∧ NoLinkCall s t ∧ SurroundingsKept s t) ∧
    (s.cfg.guardMaxW < s.guardInput → ∃ t, exec .guard s = .next t ∧ EndedWith 0x02 s t ∧
      FlagsAdded [.rangeErr] s t ∧ RegsKeptBut [.status, .flags, .sticky] s t ∧ BytesKept s t ∧
      NoLinkCall s t ∧ SurroundingsKept s t)

/-- R173: after GUARD the data packet is never a 512 multiple, and a SEND of it never sets M512_WARN.
What a well-formed configuration is beyond R6 is log entry 7 (DEDUCED). -/
def Obligations.GuardedPacketIsNeverA512Multiple : Prop :=
  ∀ s t : State, s.cfg.WellFormed → s.guardInput ≤ s.cfg.guardMaxW → exec .guard s = .next t →
    roundEven (s.cfg.guardOverhead + t.guardWAdj.toNat) % s.cfg.m512 ≠ 0 ∧
    (∀ u v : State, u.cfg = s.cfg → u.payloadLen = s.cfg.offsetLen + t.guardWAdj.toNat →
      u.hasFlag .m512Warn = false → exec .send u = .next v → v.hasFlag .m512Warn = false)

/-- R174: the guard loses no byte of the stream: the chunk sent and the bytes rewound are together the
chunk read, and a chunk with bytes still sends some.
What a well-formed configuration is beyond R6 is log entry 7 (DEDUCED). -/
def Obligations.GuardLosesNoByte : Prop :=
  ∀ s t : State, s.cfg.WellFormed → s.guardInput ≤ s.cfg.guardMaxW → exec .guard s = .next t →
    t.guardWAdj.toNat + t.guardRewind.toNat = s.guardInput ∧
    (0 < s.guardInput → 0 < t.guardWAdj.toNat)

/-- R170: the length of an upload data packet whose payload is the offset counter and a chunk of w bytes,
under OFFSET_LEN = 8.
What a well-formed configuration is beyond R6 is log entry 7 (DEDUCED). -/
def Obligations.UploadPacketLength : Prop :=
  ∀ (s : State) (offset : Nat) (chunk : List Byte), s.cfg.WellFormed → s.cfg.offsetLen = 8 →
    s.payloadLen = (uploadPayload offset chunk).length →
    s.packetLen = s.cfg.guardOverhead + chunk.length ∧
    s.transmitLen = roundEven (s.cfg.guardOverhead + chunk.length)
end

