-- ==== Sys2Proof/Laws/Memory.lean ====
section
/-! SUPPORT. The laws of a buffer: reading after writing, lengths, and that every operation keeps the
canonical form and the buffer's bounds. -/

namespace Sys2Proof.Machine

/-! ### Lookup in a list of cells -/

theorem lookup_append (a : Nat) (l₁ l₂ : List Host.Cell) :
    (l₁ ++ l₂).lookup a = ((l₁.lookup a).or (l₂.lookup a)) := by
  induction l₁ with
  | nil => simp
  | cons c l ih =>
    obtain ⟨k, v⟩ := c
    by_cases h : a = k
    · subst h; simp
    · simp [List.lookup_cons, beq_eq_false_iff_ne.mpr h, ih]

theorem lookup_filter_kept (a : Nat) (p : Nat → Bool) (l : List Host.Cell) (h : p a = true) :
    (l.filter fun c => p c.1).lookup a = l.lookup a := by
  induction l with
  | nil => rfl
  | cons c l ih =>
    obtain ⟨k, v⟩ := c
    by_cases hk : a = k
    · subst hk; simp [h]
    · have hk' : (a == k) = false := beq_eq_false_iff_ne.mpr hk
      by_cases hp : p k = true
      · simp [hp, List.lookup_cons, hk', ih]
      · simp [hp, List.lookup_cons, hk', ih]

theorem lookup_eq_none_of_forall (a : Nat) (l : List Host.Cell) (h : ∀ c ∈ l, c.1 ≠ a) :
    l.lookup a = none := by
  induction l with
  | nil => rfl
  | cons c l ih =>
    obtain ⟨k, v⟩ := c
    have hk : (a == k) = false := beq_eq_false_iff_ne.mpr fun e => h (k, v) (by simp) e.symm
    simp [List.lookup_cons, hk, ih fun c hc => h c (by simp [hc])]

theorem mem_numbered {o : Nat} {bs : List Byte} {c : Host.Cell} (h : c ∈ numbered o bs) :
    o ≤ c.1 ∧ c.1 < o + bs.length := by
  induction bs generalizing o with
  | nil => simp [numbered] at h
  | cons b bs ih =>
    simp only [numbered, List.mem_cons] at h
    rcases h with rfl | h
    · simp
    · have := ih h
      simp only [List.length_cons]
      omega

/-- Looking up offset o+i in a written block gives its byte i where it is listed. -/
theorem lookup_numbered_filter (p : Host.Cell → Bool) (o i : Nat) (bs : List Byte) (h : i < bs.length) :
    ((numbered o bs).filter p).lookup (o + i) = if p (o + i, bs[i]) then some bs[i] else none := by
  induction bs generalizing o i with
  | nil => simp at h
  | cons b bs ih =>
    cases i with
    | zero =>
      simp only [numbered, Nat.add_zero, List.getElem_cons_zero]
      by_cases hp : p (o, b) = true
      · simp [hp]
      · rw [List.filter_cons_of_neg (by simpa using hp), if_neg hp]
        exact lookup_eq_none_of_forall _ _ fun c hc => by
          have := mem_numbered (List.mem_of_mem_filter hc)
          omega
    | succ j =>
      have hj : j < bs.length := by simpa using h
      have key := ih (o + 1) j hj
      have ho : o + 1 + j = o + (j + 1) := by omega
      rw [ho] at key
      simp only [numbered, List.getElem_cons_succ]
      by_cases hp : p (o, b) = true
      · rw [List.filter_cons_of_pos hp]
        have hne : (o + (j + 1) == o) = false := by simp
        simp only [List.lookup_cons, hne]
        simpa using key
      · rw [List.filter_cons_of_neg (by simpa using hp)]
        exact key

/-! ### Reading after writing -/

@[simp] theorem write_fill (m : Memory) (o : Nat) (bs : List Byte) : (m.write o bs).fill = m.fill := rfl

@[simp] theorem write_unlisted (m : Memory) (o : Nat) (bs : List Byte) (a : Nat) :
    (m.write o bs).unlisted a = m.unlisted a := rfl

/-- A byte outside the written block reads as before. -/
theorem read_write_outside (m : Memory) (o : Nat) (bs : List Byte) (a : Nat)
    (h : a < o ∨ o + bs.length ≤ a) : (m.write o bs).read a = m.read a := by
  have mid : ((numbered o bs).filter m.fill.lists).lookup a = none :=
    lookup_eq_none_of_forall _ _ fun c hc => by
      have := mem_numbered (List.mem_of_mem_filter hc)
      omega
  unfold Memory.read
  rw [write_unlisted]
  simp only [Memory.write, lookup_append, mid]
  rcases h with h | h
  · rw [lookup_filter_kept a (fun x => decide (x < o)) _ (by simpa using h),
      lookup_eq_none_of_forall a (m.cells.filter fun c => decide (o + bs.length ≤ c.1)) fun c hc => by
        have := (List.mem_filter.mp hc).2
        simp only [decide_eq_true_eq] at this
        omega]
    simp
  · rw [lookup_filter_kept a (fun x => decide (o + bs.length ≤ x)) _ (by simpa using h),
      lookup_eq_none_of_forall a (m.cells.filter fun c => decide (c.1 < o)) fun c hc => by
        have := (List.mem_filter.mp hc).2
        simp only [decide_eq_true_eq] at this
        omega]
    simp

/-- A byte of the written block reads as written. -/
theorem read_write_inside (m : Memory) (o : Nat) (bs : List Byte) (i : Nat) (h : i < bs.length) :
    (m.write o bs).read (o + i) = bs[i] := by
  have low : (m.cells.filter fun c => decide (c.1 < o)).lookup (o + i) = none :=
    lookup_eq_none_of_forall _ _ fun c hc => by
      have := (List.mem_filter.mp hc).2
      simp only [decide_eq_true_eq] at this
      omega
  have high : (m.cells.filter fun c => decide (o + bs.length ≤ c.1)).lookup (o + i) = none :=
    lookup_eq_none_of_forall _ _ fun c hc => by
      have := (List.mem_filter.mp hc).2
      simp only [decide_eq_true_eq] at this
      omega
  unfold Memory.read
  rw [write_unlisted]
  simp only [Memory.write, lookup_append, low, high, lookup_numbered_filter _ o i bs h]
  by_cases hl : m.fill.lists (o + i, bs[i]) = true
  · simp [hl]
  · unfold Fill.lists at hl
    unfold Memory.unlisted
    cases hf : m.fill with
    | unwritten d => simp [hf] at hl
    | byte b =>
      simp only [hf, bne_iff_ne, ne_eq, not_not] at hl
      simp [Fill.lists, hl]

/-- Reading byte a after a write, in one equation. -/
theorem read_write (m : Memory) (o : Nat) (bs : List Byte) (a : Nat) :
    (m.write o bs).read a =
      if h : o ≤ a ∧ a - o < bs.length then bs[a - o] else m.read a := by
  by_cases h : o ≤ a ∧ a - o < bs.length
  · rw [dif_pos h]
    have := read_write_inside m o bs (a - o) h.2
    rwa [Nat.add_sub_cancel' h.1] at this
  · rw [dif_neg h]
    exact read_write_outside m o bs a (by omega)

@[simp] theorem write_nil_read (m : Memory) (o a : Nat) : (m.write o []).read a = m.read a :=
  read_write_outside m o [] a (by simp; omega)

/-! ### Byte ranges -/

@[simp] theorem bytes_length (m : Memory) (a n : Nat) : (m.bytes a n).length = n := by
  simp [Memory.bytes]

@[simp] theorem bytes_zero (m : Memory) (a : Nat) : m.bytes a 0 = [] := rfl

theorem bytes_getElem (m : Memory) (a n i : Nat) (h : i < (m.bytes a n).length) :
    (m.bytes a n)[i] = m.read (a + i) := by
  simp [Memory.bytes]

/-- Two ranges are equal when their bytes are. -/
theorem bytes_congr (m m' : Memory) (a n : Nat) (h : ∀ i, i < n → m.read (a + i) = m'.read (a + i)) :
    m.bytes a n = m'.bytes a n := by
  unfold Memory.bytes
  exact List.map_congr_left fun i hi => h i (List.mem_range.mp hi)

/-- A range split in two. -/
theorem bytes_add (m : Memory) (a n k : Nat) : m.bytes a (n + k) = m.bytes a n ++ m.bytes (a + n) k := by
  simp only [Memory.bytes, List.range_add, List.map_append, List.map_map]
  congr 1
  exact List.map_congr_left fun i _ => by simp [Nat.add_assoc]

/-- Reading back a whole written block. -/
theorem bytes_write_same (m : Memory) (o : Nat) (bs : List Byte) : (m.write o bs).bytes o bs.length = bs := by
  apply List.ext_getElem
  · simp
  · intro i h₁ h₂
    rw [bytes_getElem]
    exact read_write_inside m o bs i h₂

/-- A range that misses the written block. -/
theorem bytes_write_outside (m : Memory) (o : Nat) (bs : List Byte) (a n : Nat)
    (h : a + n ≤ o ∨ o + bs.length ≤ a) : (m.write o bs).bytes a n = m.bytes a n :=
  bytes_congr _ _ a n fun i hi => read_write_outside m o bs (a + i) (by omega)

/-- A cleared buffer reads as its bytes, and as zero from there on. -/
theorem cleared_read (bs : List Byte) (a : Nat) : (Memory.cleared bs).read a = bs.getD a 0 := by
  unfold Memory.cleared
  rw [read_write]
  by_cases h : a < bs.length
  · rw [dif_pos ⟨Nat.zero_le a, by simpa using h⟩]
    simp [h]
  · rw [dif_neg (by omega)]
    have : bs.length ≤ a := by omega
    simp [Memory.read, Memory.unlisted, this]

/-! ### The canonical form -/

theorem risingFrom_mono {o o' : Nat} {l : List Host.Cell} (h : risingFrom o l = true) (ho : o' ≤ o) :
    risingFrom o' l = true := by
  cases l with
  | nil => rfl
  | cons c l =>
    simp only [risingFrom, Bool.and_eq_true, decide_eq_true_eq] at h ⊢
    exact ⟨by omega, h.2⟩

theorem le_of_risingFrom {o : Nat} {l : List Host.Cell} (h : risingFrom o l = true) {c : Host.Cell}
    (hc : c ∈ l) : o ≤ c.1 := by
  induction l generalizing o with
  | nil => simp at hc
  | cons d l ih =>
    simp only [risingFrom, Bool.and_eq_true, decide_eq_true_eq] at h
    rcases List.mem_cons.mp hc with rfl | hc
    · exact h.1
    · have := ih h.2 hc
      omega

theorem risingFrom_filter {o : Nat} {l : List Host.Cell} (p : Host.Cell → Bool)
    (h : risingFrom o l = true) : risingFrom o (l.filter p) = true := by
  induction l generalizing o with
  | nil => rfl
  | cons c l ih =>
    simp only [risingFrom, Bool.and_eq_true, decide_eq_true_eq] at h
    by_cases hp : p c = true
    · rw [List.filter_cons_of_pos hp]
      simp only [risingFrom, Bool.and_eq_true, decide_eq_true_eq]
      exact ⟨h.1, ih h.2⟩
    · rw [List.filter_cons_of_neg (by simpa using hp)]
      exact risingFrom_mono (ih h.2) (by omega)

theorem risingFrom_append {o k : Nat} {l₁ l₂ : List Host.Cell} (h₁ : risingFrom o l₁ = true)
    (hk : ∀ c ∈ l₁, c.1 < k) (h₂ : risingFrom k l₂ = true) (ho : o ≤ k) :
    risingFrom o (l₁ ++ l₂) = true := by
  induction l₁ generalizing o with
  | nil => exact risingFrom_mono h₂ ho
  | cons c l ih =>
    simp only [List.cons_append, risingFrom, Bool.and_eq_true, decide_eq_true_eq] at h₁ ⊢
    refine ⟨h₁.1, ih h₁.2 (fun d hd => hk d (by simp [hd])) ?_⟩
    have := hk c (by simp)
    omega

theorem risingFrom_numbered (o : Nat) (bs : List Byte) : risingFrom o (numbered o bs) = true := by
  induction bs generalizing o with
  | nil => rfl
  | cons b bs ih => simp [numbered, risingFrom, ih]

theorem risingFrom_filter_ge {o k : Nat} {l : List Host.Cell} (h : risingFrom o l = true) :
    risingFrom k (l.filter fun c => decide (k ≤ c.1)) = true := by
  induction l generalizing o with
  | nil => rfl
  | cons c l ih =>
    simp only [risingFrom, Bool.and_eq_true, decide_eq_true_eq] at h
    by_cases hk : k ≤ c.1
    · rw [List.filter_cons_of_pos (by simpa using hk)]
      simp only [risingFrom, Bool.and_eq_true, decide_eq_true_eq]
      exact ⟨hk, risingFrom_filter _ h.2⟩
    · rw [List.filter_cons_of_neg (by simpa using hk)]
      exact ih h.2

/-- Writing keeps the canonical form. -/
theorem write_wf {m : Memory} (o : Nat) (bs : List Byte) (h : m.wf = true) : (m.write o bs).wf = true := by
  simp only [Memory.wf, Bool.and_eq_true] at h ⊢
  obtain ⟨hr, hl⟩ := h
  constructor
  · have low : ∀ c ∈ m.cells.filter (fun c => decide (c.1 < o)), c.1 < o := fun c hc => by
      simpa using (List.mem_filter.mp hc).2
    have mid : ∀ c ∈ (numbered o bs).filter m.fill.lists, c.1 < o + bs.length := fun c hc =>
      (mem_numbered (List.mem_of_mem_filter hc)).2
    refine risingFrom_append (k := o + bs.length) ?_ ?_ (risingFrom_filter_ge hr) (Nat.zero_le _)
    · exact risingFrom_append (risingFrom_filter _ hr) low
        (risingFrom_filter _ (risingFrom_numbered o bs)) (Nat.zero_le o)
    · intro c hc
      rcases List.mem_append.mp hc with hc | hc
      · have := low c hc
        omega
      · exact mid c hc
  · simp only [Memory.write, List.all_append, Bool.and_eq_true, List.all_eq_true] at hl ⊢
    refine ⟨⟨fun c hc => hl c (List.mem_of_mem_filter hc), fun c hc => (List.mem_filter.mp hc).2⟩,
      fun c hc => hl c (List.mem_of_mem_filter hc)⟩

/-- Writing inside a buffer's bounds keeps them. -/
theorem write_within {m : Memory} {o size : Nat} {bs : List Byte} (h : m.within size = true)
    (hb : o + bs.length ≤ size) : (m.write o bs).within size = true := by
  simp only [Memory.within, List.all_eq_true, decide_eq_true_eq] at h ⊢
  intro c hc
  rcases List.mem_append.mp hc with hc | hc
  · rcases List.mem_append.mp hc with hc | hc
    · exact h c (List.mem_of_mem_filter hc)
    · have := mem_numbered (List.mem_of_mem_filter hc)
      omega
  · exact h c (List.mem_of_mem_filter hc)

theorem cleared_wf (bs : List Byte) : (Memory.cleared bs).wf = true := write_wf 0 bs (by decide)

theorem cleared_within {bs : List Byte} {size : Nat} (h : bs.length ≤ size) :
    (Memory.cleared bs).within size = true :=
  write_within (by simp [Memory.within]) (by omega)

/-- A buffer nothing has written is in canonical form. -/
theorem unwritten_wf (d : Nat) : Memory.wf { cells := [], fill := .unwritten d } = true := rfl

theorem lookup_head (k : Nat) (v : Byte) (l : List Host.Cell) : ((k, v) :: l).lookup k = some v := by
  simp

theorem lookup_eq_none_of_rising {o a : Nat} {l : List Host.Cell} (h : risingFrom o l = true)
    (ha : a < o) : l.lookup a = none :=
  lookup_eq_none_of_forall _ _ fun c hc => by
    have := le_of_risingFrom h hc
    omega

/-- Cells in rising order are determined by what they list at each offset. -/
theorem cells_ext {o : Nat} {l₁ l₂ : List Host.Cell} (h₁ : risingFrom o l₁ = true)
    (h₂ : risingFrom o l₂ = true) (h : ∀ a, l₁.lookup a = l₂.lookup a) : l₁ = l₂ := by
  induction l₁ generalizing o l₂ with
  | nil =>
    cases l₂ with
    | nil => rfl
    | cons d l => exact absurd (h d.1) (by obtain ⟨k, v⟩ := d; simp)
  | cons c l ih =>
    obtain ⟨k, v⟩ := c
    simp only [risingFrom, Bool.and_eq_true, decide_eq_true_eq] at h₁
    cases l₂ with
    | nil => exact absurd (h k) (by simp)
    | cons d l' =>
      obtain ⟨k', v'⟩ := d
      simp only [risingFrom, Bool.and_eq_true, decide_eq_true_eq] at h₂
      have hk : k = k' := by
        rcases Nat.lt_trichotomy k k' with hlt | heq | hgt
        · have h' := h k
          rw [lookup_head, List.lookup_cons, beq_eq_false_iff_ne.mpr (by omega),
            lookup_eq_none_of_rising h₂.2 (by omega)] at h'
          exact absurd h' (by simp)
        · exact heq
        · have h' := h k'
          rw [lookup_head, List.lookup_cons, beq_eq_false_iff_ne.mpr (by omega),
            lookup_eq_none_of_rising h₁.2 (by omega)] at h'
          exact absurd h' (by simp)
      subst hk
      have hv : v = v' := by simpa using h k
      subst hv
      congr 1
      refine ih h₁.2 h₂.2 fun a => ?_
      by_cases ha : a = k
      · subst ha
        rw [lookup_eq_none_of_rising h₁.2 (by omega), lookup_eq_none_of_rising h₂.2 (by omega)]
      · have h' := h a
        simpa [List.lookup_cons, beq_eq_false_iff_ne.mpr ha] using h'

/-- Two buffers in canonical form over the same known byte are equal data when they read alike. -/
theorem memory_ext {m m' : Memory} {b : Byte} (hm : m.wf = true) (hm' : m'.wf = true)
    (hf : m.fill = .byte b) (hf' : m'.fill = .byte b) (h : ∀ a, m.read a = m'.read a) : m = m' := by
  obtain ⟨l, f⟩ := m
  obtain ⟨l', f'⟩ := m'
  simp only at hf hf'
  subst hf hf'
  simp only [Memory.wf, Bool.and_eq_true, List.all_eq_true, Fill.lists, bne_iff_ne] at hm hm'
  have listed : ∀ {l : List Host.Cell} {a : Nat} {v : Byte}, (∀ c ∈ l, c.2 ≠ b) → l.lookup a = some v →
      v ≠ b := by
    intro l a v hl hv
    induction l with
    | nil => simp at hv
    | cons c l ih =>
      obtain ⟨k, w⟩ := c
      by_cases ha : a = k
      · subst ha
        have : w = v := by simpa using hv
        exact this ▸ hl (a, w) (by simp)
      · exact ih (fun c hc => hl c (by simp [hc]))
          (by simpa [List.lookup_cons, beq_eq_false_iff_ne.mpr ha] using hv)
  have hl : l = l' := by
    refine cells_ext hm.1 hm'.1 fun a => ?_
    have ha := h a
    simp only [Memory.read, Memory.unlisted] at ha
    cases e : l.lookup a with
    | none =>
      cases e' : l'.lookup a with
      | none => rfl
      | some v => exact absurd (by simpa [e, e'] using ha.symm) (listed hm'.2 e')
    | some v =>
      cases e' : l'.lookup a with
      | none => exact absurd (by simpa [e, e'] using ha) (listed hm.2 e)
      | some w => simpa [e, e'] using ha
  rw [hl]

end Sys2Proof.Machine
end

