-- ==== Sys2Proof/Laws/State.lean ====
section
/-! SUPPORT. One lemma per field per named update of State, each true by rfl, so that no proof unfolds
a record update; and the frame of the updates that branch. -/

namespace Sys2Proof.Machine

/-! ### setSticky -/

@[simp] theorem setSticky_cfg (s : State) (i : Nat) : (s.setSticky i).cfg = s.cfg := rfl
@[simp] theorem setSticky_engine (s : State) (i : Nat) : (s.setSticky i).engine = s.engine := rfl
@[simp] theorem setSticky_status (s : State) (i : Nat) : (s.setSticky i).status = s.status := rfl
@[simp] theorem setSticky_flags (s : State) (i : Nat) : (s.setSticky i).flags = s.flags := rfl
@[simp] theorem setSticky_sticky (s : State) (i : Nat) : (s.setSticky i).sticky = s.sticky ||| (1 <<< i) := rfl
@[simp] theorem setSticky_config (s : State) (i : Nat) : (s.setSticky i).config = s.config := rfl
@[simp] theorem setSticky_timeout (s : State) (i : Nat) : (s.setSticky i).timeout = s.timeout := rfl
@[simp] theorem setSticky_txCmd (s : State) (i : Nat) : (s.setSticky i).txCmd = s.txCmd := rfl
@[simp] theorem setSticky_txPlen (s : State) (i : Nat) : (s.setSticky i).txPlen = s.txPlen := rfl
@[simp] theorem setSticky_xferLen (s : State) (i : Nat) : (s.setSticky i).xferLen = s.xferLen := rfl
@[simp] theorem setSticky_guardW (s : State) (i : Nat) : (s.setSticky i).guardW = s.guardW := rfl
@[simp] theorem setSticky_rxCount (s : State) (i : Nat) : (s.setSticky i).rxCount = s.rxCount := rfl
@[simp] theorem setSticky_resultCount (s : State) (i : Nat) : (s.setSticky i).resultCount = s.resultCount := rfl
@[simp] theorem setSticky_txWireLen (s : State) (i : Nat) : (s.setSticky i).txWireLen = s.txWireLen := rfl
@[simp] theorem setSticky_rxLen (s : State) (i : Nat) : (s.setSticky i).rxLen = s.rxLen := rfl
@[simp] theorem setSticky_rxCmd (s : State) (i : Nat) : (s.setSticky i).rxCmd = s.rxCmd := rfl
@[simp] theorem setSticky_rxCrcEmbedded (s : State) (i : Nat) : (s.setSticky i).rxCrcEmbedded = s.rxCrcEmbedded := rfl
@[simp] theorem setSticky_rxCrcComputed (s : State) (i : Nat) : (s.setSticky i).rxCrcComputed = s.rxCrcComputed := rfl
@[simp] theorem setSticky_crcResult (s : State) (i : Nat) : (s.setSticky i).crcResult = s.crcResult := rfl
@[simp] theorem setSticky_guardWAdj (s : State) (i : Nat) : (s.setSticky i).guardWAdj = s.guardWAdj := rfl
@[simp] theorem setSticky_guardRewind (s : State) (i : Nat) : (s.setSticky i).guardRewind = s.guardRewind := rfl
@[simp] theorem setSticky_linkErr (s : State) (i : Nat) : (s.setSticky i).linkErr = s.linkErr := rfl
@[simp] theorem setSticky_chunks (s : State) (i : Nat) : (s.setSticky i).chunks = s.chunks := rfl
@[simp] theorem setSticky_txbuf (s : State) (i : Nat) : (s.setSticky i).txbuf = s.txbuf := rfl
@[simp] theorem setSticky_rxbuf (s : State) (i : Nat) : (s.setSticky i).rxbuf = s.rxbuf := rfl
@[simp] theorem setSticky_rxpkt (s : State) (i : Nat) : (s.setSticky i).rxpkt = s.rxpkt := rfl
@[simp] theorem setSticky_schedule (s : State) (i : Nat) : (s.setSticky i).schedule = s.schedule := rfl
@[simp] theorem setSticky_answers (s : State) (i : Nat) : (s.setSticky i).answers = s.answers := rfl
@[simp] theorem setSticky_linkLog (s : State) (i : Nat) : (s.setSticky i).linkLog = s.linkLog := rfl
@[simp] theorem setSticky_readData (s : State) (i : Nat) : (s.setSticky i).readData = s.readData := rfl
@[simp] theorem setSticky_draws (s : State) (i : Nat) : (s.setSticky i).draws = s.draws := rfl

/-! ### flag -/

@[simp] theorem flag_cfg (s : State) (f : Flag) : (s.flag f).cfg = s.cfg := rfl
@[simp] theorem flag_engine (s : State) (f : Flag) : (s.flag f).engine = s.engine := rfl
@[simp] theorem flag_status (s : State) (f : Flag) : (s.flag f).status = s.status := rfl
@[simp] theorem flag_flags (s : State) (f : Flag) : (s.flag f).flags = s.flags ||| (1 <<< f.bit) := rfl
@[simp] theorem flag_sticky (s : State) (f : Flag) : (s.flag f).sticky = s.sticky ||| (1 <<< f.bit) := rfl
@[simp] theorem flag_config (s : State) (f : Flag) : (s.flag f).config = s.config := rfl
@[simp] theorem flag_timeout (s : State) (f : Flag) : (s.flag f).timeout = s.timeout := rfl
@[simp] theorem flag_txCmd (s : State) (f : Flag) : (s.flag f).txCmd = s.txCmd := rfl
@[simp] theorem flag_txPlen (s : State) (f : Flag) : (s.flag f).txPlen = s.txPlen := rfl
@[simp] theorem flag_xferLen (s : State) (f : Flag) : (s.flag f).xferLen = s.xferLen := rfl
@[simp] theorem flag_guardW (s : State) (f : Flag) : (s.flag f).guardW = s.guardW := rfl
@[simp] theorem flag_rxCount (s : State) (f : Flag) : (s.flag f).rxCount = s.rxCount := rfl
@[simp] theorem flag_resultCount (s : State) (f : Flag) : (s.flag f).resultCount = s.resultCount := rfl
@[simp] theorem flag_txWireLen (s : State) (f : Flag) : (s.flag f).txWireLen = s.txWireLen := rfl
@[simp] theorem flag_rxLen (s : State) (f : Flag) : (s.flag f).rxLen = s.rxLen := rfl
@[simp] theorem flag_rxCmd (s : State) (f : Flag) : (s.flag f).rxCmd = s.rxCmd := rfl
@[simp] theorem flag_rxCrcEmbedded (s : State) (f : Flag) : (s.flag f).rxCrcEmbedded = s.rxCrcEmbedded := rfl
@[simp] theorem flag_rxCrcComputed (s : State) (f : Flag) : (s.flag f).rxCrcComputed = s.rxCrcComputed := rfl
@[simp] theorem flag_crcResult (s : State) (f : Flag) : (s.flag f).crcResult = s.crcResult := rfl
@[simp] theorem flag_guardWAdj (s : State) (f : Flag) : (s.flag f).guardWAdj = s.guardWAdj := rfl
@[simp] theorem flag_guardRewind (s : State) (f : Flag) : (s.flag f).guardRewind = s.guardRewind := rfl
@[simp] theorem flag_linkErr (s : State) (f : Flag) : (s.flag f).linkErr = s.linkErr := rfl
@[simp] theorem flag_chunks (s : State) (f : Flag) : (s.flag f).chunks = s.chunks := rfl
@[simp] theorem flag_txbuf (s : State) (f : Flag) : (s.flag f).txbuf = s.txbuf := rfl
@[simp] theorem flag_rxbuf (s : State) (f : Flag) : (s.flag f).rxbuf = s.rxbuf := rfl
@[simp] theorem flag_rxpkt (s : State) (f : Flag) : (s.flag f).rxpkt = s.rxpkt := rfl
@[simp] theorem flag_schedule (s : State) (f : Flag) : (s.flag f).schedule = s.schedule := rfl
@[simp] theorem flag_answers (s : State) (f : Flag) : (s.flag f).answers = s.answers := rfl
@[simp] theorem flag_linkLog (s : State) (f : Flag) : (s.flag f).linkLog = s.linkLog := rfl
@[simp] theorem flag_readData (s : State) (f : Flag) : (s.flag f).readData = s.readData := rfl
@[simp] theorem flag_draws (s : State) (f : Flag) : (s.flag f).draws = s.draws := rfl

/-! ### finish -/

@[simp] theorem finish_cfg (s : State) : (finish s).cfg = s.cfg := rfl
@[simp] theorem finish_engine (s : State) : (finish s).engine = .idle := rfl
@[simp] theorem finish_status (s : State) : (finish s).status = { s.status with busy := false, done := true } := rfl
@[simp] theorem finish_flags (s : State) : (finish s).flags = s.flags := rfl
@[simp] theorem finish_sticky (s : State) : (finish s).sticky = s.sticky := rfl
@[simp] theorem finish_config (s : State) : (finish s).config = s.config := rfl
@[simp] theorem finish_timeout (s : State) : (finish s).timeout = s.timeout := rfl
@[simp] theorem finish_txCmd (s : State) : (finish s).txCmd = s.txCmd := rfl
@[simp] theorem finish_txPlen (s : State) : (finish s).txPlen = s.txPlen := rfl
@[simp] theorem finish_xferLen (s : State) : (finish s).xferLen = s.xferLen := rfl
@[simp] theorem finish_guardW (s : State) : (finish s).guardW = s.guardW := rfl
@[simp] theorem finish_rxCount (s : State) : (finish s).rxCount = s.rxCount := rfl
@[simp] theorem finish_resultCount (s : State) : (finish s).resultCount = s.resultCount := rfl
@[simp] theorem finish_txWireLen (s : State) : (finish s).txWireLen = s.txWireLen := rfl
@[simp] theorem finish_rxLen (s : State) : (finish s).rxLen = s.rxLen := rfl
@[simp] theorem finish_rxCmd (s : State) : (finish s).rxCmd = s.rxCmd := rfl
@[simp] theorem finish_rxCrcEmbedded (s : State) : (finish s).rxCrcEmbedded = s.rxCrcEmbedded := rfl
@[simp] theorem finish_rxCrcComputed (s : State) : (finish s).rxCrcComputed = s.rxCrcComputed := rfl
@[simp] theorem finish_crcResult (s : State) : (finish s).crcResult = s.crcResult := rfl
@[simp] theorem finish_guardWAdj (s : State) : (finish s).guardWAdj = s.guardWAdj := rfl
@[simp] theorem finish_guardRewind (s : State) : (finish s).guardRewind = s.guardRewind := rfl
@[simp] theorem finish_linkErr (s : State) : (finish s).linkErr = s.linkErr := rfl
@[simp] theorem finish_chunks (s : State) : (finish s).chunks = s.chunks := rfl
@[simp] theorem finish_txbuf (s : State) : (finish s).txbuf = s.txbuf := rfl
@[simp] theorem finish_rxbuf (s : State) : (finish s).rxbuf = s.rxbuf := rfl
@[simp] theorem finish_rxpkt (s : State) : (finish s).rxpkt = s.rxpkt := rfl
@[simp] theorem finish_schedule (s : State) : (finish s).schedule = s.schedule := rfl
@[simp] theorem finish_answers (s : State) : (finish s).answers = s.answers := rfl
@[simp] theorem finish_linkLog (s : State) : (finish s).linkLog = s.linkLog := rfl
@[simp] theorem finish_readData (s : State) : (finish s).readData = s.readData := rfl
@[simp] theorem finish_draws (s : State) : (finish s).draws = s.draws := rfl

/-! ### raise -/

@[simp] theorem raise_cfg (e : ErrCode) (s : State) : (raise e s).cfg = s.cfg := rfl
@[simp] theorem raise_engine (e : ErrCode) (s : State) : (raise e s).engine = .idle := rfl
@[simp] theorem raise_status (e : ErrCode) (s : State) : (raise e s).status = { busy := false, done := true, lastOp := s.status.lastOp, err := e.code } := rfl
@[simp] theorem raise_flags (e : ErrCode) (s : State) : (raise e s).flags = s.flags := rfl
@[simp] theorem raise_sticky (e : ErrCode) (s : State) : (raise e s).sticky = s.sticky := rfl
@[simp] theorem raise_config (e : ErrCode) (s : State) : (raise e s).config = s.config := rfl
@[simp] theorem raise_timeout (e : ErrCode) (s : State) : (raise e s).timeout = s.timeout := rfl
@[simp] theorem raise_txCmd (e : ErrCode) (s : State) : (raise e s).txCmd = s.txCmd := rfl
@[simp] theorem raise_txPlen (e : ErrCode) (s : State) : (raise e s).txPlen = s.txPlen := rfl
@[simp] theorem raise_xferLen (e : ErrCode) (s : State) : (raise e s).xferLen = s.xferLen := rfl
@[simp] theorem raise_guardW (e : ErrCode) (s : State) : (raise e s).guardW = s.guardW := rfl
@[simp] theorem raise_rxCount (e : ErrCode) (s : State) : (raise e s).rxCount = s.rxCount := rfl
@[simp] theorem raise_resultCount (e : ErrCode) (s : State) : (raise e s).resultCount = s.resultCount := rfl
@[simp] theorem raise_txWireLen (e : ErrCode) (s : State) : (raise e s).txWireLen = s.txWireLen := rfl
@[simp] theorem raise_rxLen (e : ErrCode) (s : State) : (raise e s).rxLen = s.rxLen := rfl
@[simp] theorem raise_rxCmd (e : ErrCode) (s : State) : (raise e s).rxCmd = s.rxCmd := rfl
@[simp] theorem raise_rxCrcEmbedded (e : ErrCode) (s : State) : (raise e s).rxCrcEmbedded = s.rxCrcEmbedded := rfl
@[simp] theorem raise_rxCrcComputed (e : ErrCode) (s : State) : (raise e s).rxCrcComputed = s.rxCrcComputed := rfl
@[simp] theorem raise_crcResult (e : ErrCode) (s : State) : (raise e s).crcResult = s.crcResult := rfl
@[simp] theorem raise_guardWAdj (e : ErrCode) (s : State) : (raise e s).guardWAdj = s.guardWAdj := rfl
@[simp] theorem raise_guardRewind (e : ErrCode) (s : State) : (raise e s).guardRewind = s.guardRewind := rfl
@[simp] theorem raise_linkErr (e : ErrCode) (s : State) : (raise e s).linkErr = s.linkErr := rfl
@[simp] theorem raise_chunks (e : ErrCode) (s : State) : (raise e s).chunks = s.chunks := rfl
@[simp] theorem raise_txbuf (e : ErrCode) (s : State) : (raise e s).txbuf = s.txbuf := rfl
@[simp] theorem raise_rxbuf (e : ErrCode) (s : State) : (raise e s).rxbuf = s.rxbuf := rfl
@[simp] theorem raise_rxpkt (e : ErrCode) (s : State) : (raise e s).rxpkt = s.rxpkt := rfl
@[simp] theorem raise_schedule (e : ErrCode) (s : State) : (raise e s).schedule = s.schedule := rfl
@[simp] theorem raise_answers (e : ErrCode) (s : State) : (raise e s).answers = s.answers := rfl
@[simp] theorem raise_linkLog (e : ErrCode) (s : State) : (raise e s).linkLog = s.linkLog := rfl
@[simp] theorem raise_readData (e : ErrCode) (s : State) : (raise e s).readData = s.readData := rfl
@[simp] theorem raise_draws (e : ErrCode) (s : State) : (raise e s).draws = s.draws := rfl

/-! ### accept -/

@[simp] theorem accept_cfg (w : Word) (s : State) : (accept w s).cfg = s.cfg := rfl
@[simp] theorem accept_engine (w : Word) (s : State) : (accept w s).engine = .run { word := w, stage := .start, cursor := 0, target := 0 } := rfl
@[simp] theorem accept_status (w : Word) (s : State) : (accept w s).status = { busy := true, done := false, lastOp := w.extractLsb' 0 8, err := 0 } := rfl
@[simp] theorem accept_flags (w : Word) (s : State) : (accept w s).flags = 0 := rfl
@[simp] theorem accept_sticky (w : Word) (s : State) : (accept w s).sticky = s.sticky := rfl
@[simp] theorem accept_config (w : Word) (s : State) : (accept w s).config = s.config := rfl
@[simp] theorem accept_timeout (w : Word) (s : State) : (accept w s).timeout = s.timeout := rfl
@[simp] theorem accept_txCmd (w : Word) (s : State) : (accept w s).txCmd = s.txCmd := rfl
@[simp] theorem accept_txPlen (w : Word) (s : State) : (accept w s).txPlen = s.txPlen := rfl
@[simp] theorem accept_xferLen (w : Word) (s : State) : (accept w s).xferLen = s.xferLen := rfl
@[simp] theorem accept_guardW (w : Word) (s : State) : (accept w s).guardW = s.guardW := rfl
@[simp] theorem accept_rxCount (w : Word) (s : State) : (accept w s).rxCount = s.rxCount := rfl
@[simp] theorem accept_resultCount (w : Word) (s : State) : (accept w s).resultCount = s.resultCount := rfl
@[simp] theorem accept_txWireLen (w : Word) (s : State) : (accept w s).txWireLen = s.txWireLen := rfl
@[simp] theorem accept_rxLen (w : Word) (s : State) : (accept w s).rxLen = s.rxLen := rfl
@[simp] theorem accept_rxCmd (w : Word) (s : State) : (accept w s).rxCmd = s.rxCmd := rfl
@[simp] theorem accept_rxCrcEmbedded (w : Word) (s : State) : (accept w s).rxCrcEmbedded = s.rxCrcEmbedded := rfl
@[simp] theorem accept_rxCrcComputed (w : Word) (s : State) : (accept w s).rxCrcComputed = s.rxCrcComputed := rfl
@[simp] theorem accept_crcResult (w : Word) (s : State) : (accept w s).crcResult = s.crcResult := rfl
@[simp] theorem accept_guardWAdj (w : Word) (s : State) : (accept w s).guardWAdj = s.guardWAdj := rfl
@[simp] theorem accept_guardRewind (w : Word) (s : State) : (accept w s).guardRewind = s.guardRewind := rfl
@[simp] theorem accept_linkErr (w : Word) (s : State) : (accept w s).linkErr = s.linkErr := rfl
@[simp] theorem accept_chunks (w : Word) (s : State) : (accept w s).chunks = 0 := rfl
@[simp] theorem accept_txbuf (w : Word) (s : State) : (accept w s).txbuf = s.txbuf := rfl
@[simp] theorem accept_rxbuf (w : Word) (s : State) : (accept w s).rxbuf = s.rxbuf := rfl
@[simp] theorem accept_rxpkt (w : Word) (s : State) : (accept w s).rxpkt = s.rxpkt := rfl
@[simp] theorem accept_schedule (w : Word) (s : State) : (accept w s).schedule = s.schedule := rfl
@[simp] theorem accept_answers (w : Word) (s : State) : (accept w s).answers = s.answers := rfl
@[simp] theorem accept_linkLog (w : Word) (s : State) : (accept w s).linkLog = s.linkLog := rfl
@[simp] theorem accept_readData (w : Word) (s : State) : (accept w s).readData = s.readData := rfl
@[simp] theorem accept_draws (w : Word) (s : State) : (accept w s).draws = s.draws := rfl

/-! ### continueWith -/

@[simp] theorem continueWith_cfg (s : State) (c : Ctx) : (s.continueWith c).cfg = s.cfg := rfl
@[simp] theorem continueWith_engine (s : State) (c : Ctx) : (s.continueWith c).engine = .run c := rfl
@[simp] theorem continueWith_status (s : State) (c : Ctx) : (s.continueWith c).status = s.status := rfl
@[simp] theorem continueWith_flags (s : State) (c : Ctx) : (s.continueWith c).flags = s.flags := rfl
@[simp] theorem continueWith_sticky (s : State) (c : Ctx) : (s.continueWith c).sticky = s.sticky := rfl
@[simp] theorem continueWith_config (s : State) (c : Ctx) : (s.continueWith c).config = s.config := rfl
@[simp] theorem continueWith_timeout (s : State) (c : Ctx) : (s.continueWith c).timeout = s.timeout := rfl
@[simp] theorem continueWith_txCmd (s : State) (c : Ctx) : (s.continueWith c).txCmd = s.txCmd := rfl
@[simp] theorem continueWith_txPlen (s : State) (c : Ctx) : (s.continueWith c).txPlen = s.txPlen := rfl
@[simp] theorem continueWith_xferLen (s : State) (c : Ctx) : (s.continueWith c).xferLen = s.xferLen := rfl
@[simp] theorem continueWith_guardW (s : State) (c : Ctx) : (s.continueWith c).guardW = s.guardW := rfl
@[simp] theorem continueWith_rxCount (s : State) (c : Ctx) : (s.continueWith c).rxCount = s.rxCount := rfl
@[simp] theorem continueWith_resultCount (s : State) (c : Ctx) : (s.continueWith c).resultCount = s.resultCount := rfl
@[simp] theorem continueWith_txWireLen (s : State) (c : Ctx) : (s.continueWith c).txWireLen = s.txWireLen := rfl
@[simp] theorem continueWith_rxLen (s : State) (c : Ctx) : (s.continueWith c).rxLen = s.rxLen := rfl
@[simp] theorem continueWith_rxCmd (s : State) (c : Ctx) : (s.continueWith c).rxCmd = s.rxCmd := rfl
@[simp] theorem continueWith_rxCrcEmbedded (s : State) (c : Ctx) : (s.continueWith c).rxCrcEmbedded = s.rxCrcEmbedded := rfl
@[simp] theorem continueWith_rxCrcComputed (s : State) (c : Ctx) : (s.continueWith c).rxCrcComputed = s.rxCrcComputed := rfl
@[simp] theorem continueWith_crcResult (s : State) (c : Ctx) : (s.continueWith c).crcResult = s.crcResult := rfl
@[simp] theorem continueWith_guardWAdj (s : State) (c : Ctx) : (s.continueWith c).guardWAdj = s.guardWAdj := rfl
@[simp] theorem continueWith_guardRewind (s : State) (c : Ctx) : (s.continueWith c).guardRewind = s.guardRewind := rfl
@[simp] theorem continueWith_linkErr (s : State) (c : Ctx) : (s.continueWith c).linkErr = s.linkErr := rfl
@[simp] theorem continueWith_chunks (s : State) (c : Ctx) : (s.continueWith c).chunks = s.chunks := rfl
@[simp] theorem continueWith_txbuf (s : State) (c : Ctx) : (s.continueWith c).txbuf = s.txbuf := rfl
@[simp] theorem continueWith_rxbuf (s : State) (c : Ctx) : (s.continueWith c).rxbuf = s.rxbuf := rfl
@[simp] theorem continueWith_rxpkt (s : State) (c : Ctx) : (s.continueWith c).rxpkt = s.rxpkt := rfl
@[simp] theorem continueWith_schedule (s : State) (c : Ctx) : (s.continueWith c).schedule = s.schedule := rfl
@[simp] theorem continueWith_answers (s : State) (c : Ctx) : (s.continueWith c).answers = s.answers := rfl
@[simp] theorem continueWith_linkLog (s : State) (c : Ctx) : (s.continueWith c).linkLog = s.linkLog := rfl
@[simp] theorem continueWith_readData (s : State) (c : Ctx) : (s.continueWith c).readData = s.readData := rfl
@[simp] theorem continueWith_draws (s : State) (c : Ctx) : (s.continueWith c).draws = s.draws := rfl

/-! ### logCall -/

@[simp] theorem logCall_cfg (s : State) (ev : LinkEvent) : (s.logCall ev).cfg = s.cfg := rfl
@[simp] theorem logCall_engine (s : State) (ev : LinkEvent) : (s.logCall ev).engine = s.engine := rfl
@[simp] theorem logCall_status (s : State) (ev : LinkEvent) : (s.logCall ev).status = s.status := rfl
@[simp] theorem logCall_flags (s : State) (ev : LinkEvent) : (s.logCall ev).flags = s.flags := rfl
@[simp] theorem logCall_sticky (s : State) (ev : LinkEvent) : (s.logCall ev).sticky = s.sticky := rfl
@[simp] theorem logCall_config (s : State) (ev : LinkEvent) : (s.logCall ev).config = s.config := rfl
@[simp] theorem logCall_timeout (s : State) (ev : LinkEvent) : (s.logCall ev).timeout = s.timeout := rfl
@[simp] theorem logCall_txCmd (s : State) (ev : LinkEvent) : (s.logCall ev).txCmd = s.txCmd := rfl
@[simp] theorem logCall_txPlen (s : State) (ev : LinkEvent) : (s.logCall ev).txPlen = s.txPlen := rfl
@[simp] theorem logCall_xferLen (s : State) (ev : LinkEvent) : (s.logCall ev).xferLen = s.xferLen := rfl
@[simp] theorem logCall_guardW (s : State) (ev : LinkEvent) : (s.logCall ev).guardW = s.guardW := rfl
@[simp] theorem logCall_rxCount (s : State) (ev : LinkEvent) : (s.logCall ev).rxCount = s.rxCount := rfl
@[simp] theorem logCall_resultCount (s : State) (ev : LinkEvent) : (s.logCall ev).resultCount = s.resultCount := rfl
@[simp] theorem logCall_txWireLen (s : State) (ev : LinkEvent) : (s.logCall ev).txWireLen = s.txWireLen := rfl
@[simp] theorem logCall_rxLen (s : State) (ev : LinkEvent) : (s.logCall ev).rxLen = s.rxLen := rfl
@[simp] theorem logCall_rxCmd (s : State) (ev : LinkEvent) : (s.logCall ev).rxCmd = s.rxCmd := rfl
@[simp] theorem logCall_rxCrcEmbedded (s : State) (ev : LinkEvent) : (s.logCall ev).rxCrcEmbedded = s.rxCrcEmbedded := rfl
@[simp] theorem logCall_rxCrcComputed (s : State) (ev : LinkEvent) : (s.logCall ev).rxCrcComputed = s.rxCrcComputed := rfl
@[simp] theorem logCall_crcResult (s : State) (ev : LinkEvent) : (s.logCall ev).crcResult = s.crcResult := rfl
@[simp] theorem logCall_guardWAdj (s : State) (ev : LinkEvent) : (s.logCall ev).guardWAdj = s.guardWAdj := rfl
@[simp] theorem logCall_guardRewind (s : State) (ev : LinkEvent) : (s.logCall ev).guardRewind = s.guardRewind := rfl
@[simp] theorem logCall_linkErr (s : State) (ev : LinkEvent) : (s.logCall ev).linkErr = s.linkErr := rfl
@[simp] theorem logCall_chunks (s : State) (ev : LinkEvent) : (s.logCall ev).chunks = s.chunks + 1 := rfl
@[simp] theorem logCall_txbuf (s : State) (ev : LinkEvent) : (s.logCall ev).txbuf = s.txbuf := rfl
@[simp] theorem logCall_rxbuf (s : State) (ev : LinkEvent) : (s.logCall ev).rxbuf = s.rxbuf := rfl
@[simp] theorem logCall_rxpkt (s : State) (ev : LinkEvent) : (s.logCall ev).rxpkt = s.rxpkt := rfl
@[simp] theorem logCall_schedule (s : State) (ev : LinkEvent) : (s.logCall ev).schedule = s.schedule := rfl
@[simp] theorem logCall_answers (s : State) (ev : LinkEvent) : (s.logCall ev).answers = s.answers := rfl
@[simp] theorem logCall_linkLog (s : State) (ev : LinkEvent) : (s.logCall ev).linkLog = ev :: s.linkLog := rfl
@[simp] theorem logCall_readData (s : State) (ev : LinkEvent) : (s.logCall ev).readData = s.readData := rfl
@[simp] theorem logCall_draws (s : State) (ev : LinkEvent) : (s.logCall ev).draws = s.draws := rfl

/-! ### answer -/

@[simp] theorem answer_cfg (s : State) (v : Word) : (s.answer v).cfg = s.cfg := rfl
@[simp] theorem answer_engine (s : State) (v : Word) : (s.answer v).engine = s.engine := rfl
@[simp] theorem answer_status (s : State) (v : Word) : (s.answer v).status = s.status := rfl
@[simp] theorem answer_flags (s : State) (v : Word) : (s.answer v).flags = s.flags := rfl
@[simp] theorem answer_sticky (s : State) (v : Word) : (s.answer v).sticky = s.sticky := rfl
@[simp] theorem answer_config (s : State) (v : Word) : (s.answer v).config = s.config := rfl
@[simp] theorem answer_timeout (s : State) (v : Word) : (s.answer v).timeout = s.timeout := rfl
@[simp] theorem answer_txCmd (s : State) (v : Word) : (s.answer v).txCmd = s.txCmd := rfl
@[simp] theorem answer_txPlen (s : State) (v : Word) : (s.answer v).txPlen = s.txPlen := rfl
@[simp] theorem answer_xferLen (s : State) (v : Word) : (s.answer v).xferLen = s.xferLen := rfl
@[simp] theorem answer_guardW (s : State) (v : Word) : (s.answer v).guardW = s.guardW := rfl
@[simp] theorem answer_rxCount (s : State) (v : Word) : (s.answer v).rxCount = s.rxCount := rfl
@[simp] theorem answer_resultCount (s : State) (v : Word) : (s.answer v).resultCount = s.resultCount := rfl
@[simp] theorem answer_txWireLen (s : State) (v : Word) : (s.answer v).txWireLen = s.txWireLen := rfl
@[simp] theorem answer_rxLen (s : State) (v : Word) : (s.answer v).rxLen = s.rxLen := rfl
@[simp] theorem answer_rxCmd (s : State) (v : Word) : (s.answer v).rxCmd = s.rxCmd := rfl
@[simp] theorem answer_rxCrcEmbedded (s : State) (v : Word) : (s.answer v).rxCrcEmbedded = s.rxCrcEmbedded := rfl
@[simp] theorem answer_rxCrcComputed (s : State) (v : Word) : (s.answer v).rxCrcComputed = s.rxCrcComputed := rfl
@[simp] theorem answer_crcResult (s : State) (v : Word) : (s.answer v).crcResult = s.crcResult := rfl
@[simp] theorem answer_guardWAdj (s : State) (v : Word) : (s.answer v).guardWAdj = s.guardWAdj := rfl
@[simp] theorem answer_guardRewind (s : State) (v : Word) : (s.answer v).guardRewind = s.guardRewind := rfl
@[simp] theorem answer_linkErr (s : State) (v : Word) : (s.answer v).linkErr = s.linkErr := rfl
@[simp] theorem answer_chunks (s : State) (v : Word) : (s.answer v).chunks = s.chunks := rfl
@[simp] theorem answer_txbuf (s : State) (v : Word) : (s.answer v).txbuf = s.txbuf := rfl
@[simp] theorem answer_rxbuf (s : State) (v : Word) : (s.answer v).rxbuf = s.rxbuf := rfl
@[simp] theorem answer_rxpkt (s : State) (v : Word) : (s.answer v).rxpkt = s.rxpkt := rfl
@[simp] theorem answer_schedule (s : State) (v : Word) : (s.answer v).schedule = s.schedule := rfl
@[simp] theorem answer_answers (s : State) (v : Word) : (s.answer v).answers = s.answers := rfl
@[simp] theorem answer_linkLog (s : State) (v : Word) : (s.answer v).linkLog = s.linkLog := rfl
@[simp] theorem answer_readData (s : State) (v : Word) : (s.answer v).readData = some v := rfl
@[simp] theorem answer_draws (s : State) (v : Word) : (s.answer v).draws = s.draws := rfl

/-! ### answerFree -/

@[simp] theorem answerFree_cfg (s : State) (v : Word) : (s.answerFree v).cfg = s.cfg := rfl
@[simp] theorem answerFree_engine (s : State) (v : Word) : (s.answerFree v).engine = s.engine := rfl
@[simp] theorem answerFree_status (s : State) (v : Word) : (s.answerFree v).status = s.status := rfl
@[simp] theorem answerFree_flags (s : State) (v : Word) : (s.answerFree v).flags = s.flags := rfl
@[simp] theorem answerFree_sticky (s : State) (v : Word) : (s.answerFree v).sticky = s.sticky := rfl
@[simp] theorem answerFree_config (s : State) (v : Word) : (s.answerFree v).config = s.config := rfl
@[simp] theorem answerFree_timeout (s : State) (v : Word) : (s.answerFree v).timeout = s.timeout := rfl
@[simp] theorem answerFree_txCmd (s : State) (v : Word) : (s.answerFree v).txCmd = s.txCmd := rfl
@[simp] theorem answerFree_txPlen (s : State) (v : Word) : (s.answerFree v).txPlen = s.txPlen := rfl
@[simp] theorem answerFree_xferLen (s : State) (v : Word) : (s.answerFree v).xferLen = s.xferLen := rfl
@[simp] theorem answerFree_guardW (s : State) (v : Word) : (s.answerFree v).guardW = s.guardW := rfl
@[simp] theorem answerFree_rxCount (s : State) (v : Word) : (s.answerFree v).rxCount = s.rxCount := rfl
@[simp] theorem answerFree_resultCount (s : State) (v : Word) : (s.answerFree v).resultCount = s.resultCount := rfl
@[simp] theorem answerFree_txWireLen (s : State) (v : Word) : (s.answerFree v).txWireLen = s.txWireLen := rfl
@[simp] theorem answerFree_rxLen (s : State) (v : Word) : (s.answerFree v).rxLen = s.rxLen := rfl
@[simp] theorem answerFree_rxCmd (s : State) (v : Word) : (s.answerFree v).rxCmd = s.rxCmd := rfl
@[simp] theorem answerFree_rxCrcEmbedded (s : State) (v : Word) : (s.answerFree v).rxCrcEmbedded = s.rxCrcEmbedded := rfl
@[simp] theorem answerFree_rxCrcComputed (s : State) (v : Word) : (s.answerFree v).rxCrcComputed = s.rxCrcComputed := rfl
@[simp] theorem answerFree_crcResult (s : State) (v : Word) : (s.answerFree v).crcResult = s.crcResult := rfl
@[simp] theorem answerFree_guardWAdj (s : State) (v : Word) : (s.answerFree v).guardWAdj = s.guardWAdj := rfl
@[simp] theorem answerFree_guardRewind (s : State) (v : Word) : (s.answerFree v).guardRewind = s.guardRewind := rfl
@[simp] theorem answerFree_linkErr (s : State) (v : Word) : (s.answerFree v).linkErr = s.linkErr := rfl
@[simp] theorem answerFree_chunks (s : State) (v : Word) : (s.answerFree v).chunks = s.chunks := rfl
@[simp] theorem answerFree_txbuf (s : State) (v : Word) : (s.answerFree v).txbuf = s.txbuf := rfl
@[simp] theorem answerFree_rxbuf (s : State) (v : Word) : (s.answerFree v).rxbuf = s.rxbuf := rfl
@[simp] theorem answerFree_rxpkt (s : State) (v : Word) : (s.answerFree v).rxpkt = s.rxpkt := rfl
@[simp] theorem answerFree_schedule (s : State) (v : Word) : (s.answerFree v).schedule = s.schedule := rfl
@[simp] theorem answerFree_answers (s : State) (v : Word) : (s.answerFree v).answers = s.answers := rfl
@[simp] theorem answerFree_linkLog (s : State) (v : Word) : (s.answerFree v).linkLog = s.linkLog := rfl
@[simp] theorem answerFree_readData (s : State) (v : Word) : (s.answerFree v).readData = some v := rfl
@[simp] theorem answerFree_draws (s : State) (v : Word) : (s.answerFree v).draws = s.draws + 1 := rfl

/-! ### setReceived -/

@[simp] theorem setReceived_cfg (s : State) (n : Nat) : (s.setReceived n).cfg = s.cfg := rfl
@[simp] theorem setReceived_engine (s : State) (n : Nat) : (s.setReceived n).engine = s.engine := rfl
@[simp] theorem setReceived_status (s : State) (n : Nat) : (s.setReceived n).status = s.status := rfl
@[simp] theorem setReceived_flags (s : State) (n : Nat) : (s.setReceived n).flags = s.flags := rfl
@[simp] theorem setReceived_sticky (s : State) (n : Nat) : (s.setReceived n).sticky = s.sticky := rfl
@[simp] theorem setReceived_config (s : State) (n : Nat) : (s.setReceived n).config = s.config := rfl
@[simp] theorem setReceived_timeout (s : State) (n : Nat) : (s.setReceived n).timeout = s.timeout := rfl
@[simp] theorem setReceived_txCmd (s : State) (n : Nat) : (s.setReceived n).txCmd = s.txCmd := rfl
@[simp] theorem setReceived_txPlen (s : State) (n : Nat) : (s.setReceived n).txPlen = s.txPlen := rfl
@[simp] theorem setReceived_xferLen (s : State) (n : Nat) : (s.setReceived n).xferLen = s.xferLen := rfl
@[simp] theorem setReceived_guardW (s : State) (n : Nat) : (s.setReceived n).guardW = s.guardW := rfl
@[simp] theorem setReceived_rxCount (s : State) (n : Nat) : (s.setReceived n).rxCount = BitVec.ofNat 17 n := rfl
@[simp] theorem setReceived_resultCount (s : State) (n : Nat) : (s.setReceived n).resultCount = BitVec.ofNat 17 n := rfl
@[simp] theorem setReceived_txWireLen (s : State) (n : Nat) : (s.setReceived n).txWireLen = s.txWireLen := rfl
@[simp] theorem setReceived_rxLen (s : State) (n : Nat) : (s.setReceived n).rxLen = s.rxLen := rfl
@[simp] theorem setReceived_rxCmd (s : State) (n : Nat) : (s.setReceived n).rxCmd = s.rxCmd := rfl
@[simp] theorem setReceived_rxCrcEmbedded (s : State) (n : Nat) : (s.setReceived n).rxCrcEmbedded = s.rxCrcEmbedded := rfl
@[simp] theorem setReceived_rxCrcComputed (s : State) (n : Nat) : (s.setReceived n).rxCrcComputed = s.rxCrcComputed := rfl
@[simp] theorem setReceived_crcResult (s : State) (n : Nat) : (s.setReceived n).crcResult = s.crcResult := rfl
@[simp] theorem setReceived_guardWAdj (s : State) (n : Nat) : (s.setReceived n).guardWAdj = s.guardWAdj := rfl
@[simp] theorem setReceived_guardRewind (s : State) (n : Nat) : (s.setReceived n).guardRewind = s.guardRewind := rfl
@[simp] theorem setReceived_linkErr (s : State) (n : Nat) : (s.setReceived n).linkErr = s.linkErr := rfl
@[simp] theorem setReceived_chunks (s : State) (n : Nat) : (s.setReceived n).chunks = s.chunks := rfl
@[simp] theorem setReceived_txbuf (s : State) (n : Nat) : (s.setReceived n).txbuf = s.txbuf := rfl
@[simp] theorem setReceived_rxbuf (s : State) (n : Nat) : (s.setReceived n).rxbuf = s.rxbuf := rfl
@[simp] theorem setReceived_rxpkt (s : State) (n : Nat) : (s.setReceived n).rxpkt = s.rxpkt := rfl
@[simp] theorem setReceived_schedule (s : State) (n : Nat) : (s.setReceived n).schedule = s.schedule := rfl
@[simp] theorem setReceived_answers (s : State) (n : Nat) : (s.setReceived n).answers = s.answers := rfl
@[simp] theorem setReceived_linkLog (s : State) (n : Nat) : (s.setReceived n).linkLog = s.linkLog := rfl
@[simp] theorem setReceived_readData (s : State) (n : Nat) : (s.setReceived n).readData = s.readData := rfl
@[simp] theorem setReceived_draws (s : State) (n : Nat) : (s.setReceived n).draws = s.draws := rfl

/-! ### Updates that branch -/

@[simp] theorem flagIf_true (s : State) (f : Flag) : s.flagIf true f = s.flag f := rfl

@[simp] theorem flagIf_false (s : State) (f : Flag) : s.flagIf false f = s := rfl

@[simp] theorem flagIf_cfg (s : State) (c : Bool) (f : Flag) : (s.flagIf c f).cfg = s.cfg := by
  cases c <;> rfl
@[simp] theorem flagIf_engine (s : State) (c : Bool) (f : Flag) : (s.flagIf c f).engine = s.engine := by
  cases c <;> rfl
@[simp] theorem flagIf_status (s : State) (c : Bool) (f : Flag) : (s.flagIf c f).status = s.status := by
  cases c <;> rfl
@[simp] theorem flagIf_config (s : State) (c : Bool) (f : Flag) : (s.flagIf c f).config = s.config := by
  cases c <;> rfl
@[simp] theorem flagIf_timeout (s : State) (c : Bool) (f : Flag) : (s.flagIf c f).timeout = s.timeout := by
  cases c <;> rfl
@[simp] theorem flagIf_txCmd (s : State) (c : Bool) (f : Flag) : (s.flagIf c f).txCmd = s.txCmd := by
  cases c <;> rfl
@[simp] theorem flagIf_txPlen (s : State) (c : Bool) (f : Flag) : (s.flagIf c f).txPlen = s.txPlen := by
  cases c <;> rfl
@[simp] theorem flagIf_xferLen (s : State) (c : Bool) (f : Flag) : (s.flagIf c f).xferLen = s.xferLen := by
  cases c <;> rfl
@[simp] theorem flagIf_guardW (s : State) (c : Bool) (f : Flag) : (s.flagIf c f).guardW = s.guardW := by
  cases c <;> rfl
@[simp] theorem flagIf_rxCount (s : State) (c : Bool) (f : Flag) : (s.flagIf c f).rxCount = s.rxCount := by
  cases c <;> rfl
@[simp] theorem flagIf_resultCount (s : State) (c : Bool) (f : Flag) : (s.flagIf c f).resultCount = s.resultCount := by
  cases c <;> rfl
@[simp] theorem flagIf_txWireLen (s : State) (c : Bool) (f : Flag) : (s.flagIf c f).txWireLen = s.txWireLen := by
  cases c <;> rfl
@[simp] theorem flagIf_rxLen (s : State) (c : Bool) (f : Flag) : (s.flagIf c f).rxLen = s.rxLen := by
  cases c <;> rfl
@[simp] theorem flagIf_rxCmd (s : State) (c : Bool) (f : Flag) : (s.flagIf c f).rxCmd = s.rxCmd := by
  cases c <;> rfl
@[simp] theorem flagIf_rxCrcEmbedded (s : State) (c : Bool) (f : Flag) : (s.flagIf c f).rxCrcEmbedded = s.rxCrcEmbedded := by
  cases c <;> rfl
@[simp] theorem flagIf_rxCrcComputed (s : State) (c : Bool) (f : Flag) : (s.flagIf c f).rxCrcComputed = s.rxCrcComputed := by
  cases c <;> rfl
@[simp] theorem flagIf_crcResult (s : State) (c : Bool) (f : Flag) : (s.flagIf c f).crcResult = s.crcResult := by
  cases c <;> rfl
@[simp] theorem flagIf_guardWAdj (s : State) (c : Bool) (f : Flag) : (s.flagIf c f).guardWAdj = s.guardWAdj := by
  cases c <;> rfl
@[simp] theorem flagIf_guardRewind (s : State) (c : Bool) (f : Flag) : (s.flagIf c f).guardRewind = s.guardRewind := by
  cases c <;> rfl
@[simp] theorem flagIf_linkErr (s : State) (c : Bool) (f : Flag) : (s.flagIf c f).linkErr = s.linkErr := by
  cases c <;> rfl
@[simp] theorem flagIf_chunks (s : State) (c : Bool) (f : Flag) : (s.flagIf c f).chunks = s.chunks := by
  cases c <;> rfl
@[simp] theorem flagIf_txbuf (s : State) (c : Bool) (f : Flag) : (s.flagIf c f).txbuf = s.txbuf := by
  cases c <;> rfl
@[simp] theorem flagIf_rxbuf (s : State) (c : Bool) (f : Flag) : (s.flagIf c f).rxbuf = s.rxbuf := by
  cases c <;> rfl
@[simp] theorem flagIf_rxpkt (s : State) (c : Bool) (f : Flag) : (s.flagIf c f).rxpkt = s.rxpkt := by
  cases c <;> rfl
@[simp] theorem flagIf_schedule (s : State) (c : Bool) (f : Flag) : (s.flagIf c f).schedule = s.schedule := by
  cases c <;> rfl
@[simp] theorem flagIf_answers (s : State) (c : Bool) (f : Flag) : (s.flagIf c f).answers = s.answers := by
  cases c <;> rfl
@[simp] theorem flagIf_linkLog (s : State) (c : Bool) (f : Flag) : (s.flagIf c f).linkLog = s.linkLog := by
  cases c <;> rfl
@[simp] theorem flagIf_readData (s : State) (c : Bool) (f : Flag) : (s.flagIf c f).readData = s.readData := by
  cases c <;> rfl
@[simp] theorem flagIf_draws (s : State) (c : Bool) (f : Flag) : (s.flagIf c f).draws = s.draws := by
  cases c <;> rfl

@[simp] theorem endWith_none (s : State) : endWith none s = finish s := rfl

@[simp] theorem endWith_some (e : ErrCode) (s : State) : endWith (some e) s = raise e s := rfl

@[simp] theorem endWith_engine (e : Option ErrCode) (s : State) : (endWith e s).engine = .idle := by
  cases e <;> rfl

@[simp] theorem endWith_cfg (e : Option ErrCode) (s : State) : (endWith e s).cfg = s.cfg := by
  cases e <;> rfl
@[simp] theorem endWith_flags (e : Option ErrCode) (s : State) : (endWith e s).flags = s.flags := by
  cases e <;> rfl
@[simp] theorem endWith_sticky (e : Option ErrCode) (s : State) : (endWith e s).sticky = s.sticky := by
  cases e <;> rfl
@[simp] theorem endWith_config (e : Option ErrCode) (s : State) : (endWith e s).config = s.config := by
  cases e <;> rfl
@[simp] theorem endWith_timeout (e : Option ErrCode) (s : State) : (endWith e s).timeout = s.timeout := by
  cases e <;> rfl
@[simp] theorem endWith_txCmd (e : Option ErrCode) (s : State) : (endWith e s).txCmd = s.txCmd := by
  cases e <;> rfl
@[simp] theorem endWith_txPlen (e : Option ErrCode) (s : State) : (endWith e s).txPlen = s.txPlen := by
  cases e <;> rfl
@[simp] theorem endWith_xferLen (e : Option ErrCode) (s : State) : (endWith e s).xferLen = s.xferLen := by
  cases e <;> rfl
@[simp] theorem endWith_guardW (e : Option ErrCode) (s : State) : (endWith e s).guardW = s.guardW := by
  cases e <;> rfl
@[simp] theorem endWith_rxCount (e : Option ErrCode) (s : State) : (endWith e s).rxCount = s.rxCount := by
  cases e <;> rfl
@[simp] theorem endWith_resultCount (e : Option ErrCode) (s : State) : (endWith e s).resultCount = s.resultCount := by
  cases e <;> rfl
@[simp] theorem endWith_txWireLen (e : Option ErrCode) (s : State) : (endWith e s).txWireLen = s.txWireLen := by
  cases e <;> rfl
@[simp] theorem endWith_rxLen (e : Option ErrCode) (s : State) : (endWith e s).rxLen = s.rxLen := by
  cases e <;> rfl
@[simp] theorem endWith_rxCmd (e : Option ErrCode) (s : State) : (endWith e s).rxCmd = s.rxCmd := by
  cases e <;> rfl
@[simp] theorem endWith_rxCrcEmbedded (e : Option ErrCode) (s : State) : (endWith e s).rxCrcEmbedded = s.rxCrcEmbedded := by
  cases e <;> rfl
@[simp] theorem endWith_rxCrcComputed (e : Option ErrCode) (s : State) : (endWith e s).rxCrcComputed = s.rxCrcComputed := by
  cases e <;> rfl
@[simp] theorem endWith_crcResult (e : Option ErrCode) (s : State) : (endWith e s).crcResult = s.crcResult := by
  cases e <;> rfl
@[simp] theorem endWith_guardWAdj (e : Option ErrCode) (s : State) : (endWith e s).guardWAdj = s.guardWAdj := by
  cases e <;> rfl
@[simp] theorem endWith_guardRewind (e : Option ErrCode) (s : State) : (endWith e s).guardRewind = s.guardRewind := by
  cases e <;> rfl
@[simp] theorem endWith_linkErr (e : Option ErrCode) (s : State) : (endWith e s).linkErr = s.linkErr := by
  cases e <;> rfl
@[simp] theorem endWith_chunks (e : Option ErrCode) (s : State) : (endWith e s).chunks = s.chunks := by
  cases e <;> rfl
@[simp] theorem endWith_txbuf (e : Option ErrCode) (s : State) : (endWith e s).txbuf = s.txbuf := by
  cases e <;> rfl
@[simp] theorem endWith_rxbuf (e : Option ErrCode) (s : State) : (endWith e s).rxbuf = s.rxbuf := by
  cases e <;> rfl
@[simp] theorem endWith_rxpkt (e : Option ErrCode) (s : State) : (endWith e s).rxpkt = s.rxpkt := by
  cases e <;> rfl
@[simp] theorem endWith_schedule (e : Option ErrCode) (s : State) : (endWith e s).schedule = s.schedule := by
  cases e <;> rfl
@[simp] theorem endWith_answers (e : Option ErrCode) (s : State) : (endWith e s).answers = s.answers := by
  cases e <;> rfl
@[simp] theorem endWith_linkLog (e : Option ErrCode) (s : State) : (endWith e s).linkLog = s.linkLog := by
  cases e <;> rfl
@[simp] theorem endWith_readData (e : Option ErrCode) (s : State) : (endWith e s).readData = s.readData := by
  cases e <;> rfl
@[simp] theorem endWith_draws (e : Option ErrCode) (s : State) : (endWith e s).draws = s.draws := by
  cases e <;> rfl

/-! ### Derived views

Each view reads a few fields, so an update that leaves them leaves the view: these are the views of the
updates a proof meets under another one. -/

@[simp] theorem setSticky_crcMode (s : State) (i : Nat) : (s.setSticky i).crcMode = s.crcMode := rfl
@[simp] theorem setSticky_shortAccept (s : State) (i : Nat) : (s.setSticky i).shortAccept = s.shortAccept := rfl
@[simp] theorem setSticky_autoAck (s : State) (i : Nat) : (s.setSticky i).autoAck = s.autoAck := rfl
@[simp] theorem setSticky_xferCount (s : State) (i : Nat) : (s.setSticky i).xferCount = s.xferCount := rfl
@[simp] theorem setSticky_payloadLen (s : State) (i : Nat) : (s.setSticky i).payloadLen = s.payloadLen := rfl
@[simp] theorem setSticky_packetLen (s : State) (i : Nat) : (s.setSticky i).packetLen = s.packetLen := rfl
@[simp] theorem setSticky_transmitLen (s : State) (i : Nat) : (s.setSticky i).transmitLen = s.transmitLen := rfl
@[simp] theorem setSticky_rxLength (s : State) (i : Nat) : (s.setSticky i).rxLength = s.rxLength := rfl
@[simp] theorem setSticky_guardInput (s : State) (i : Nat) : (s.setSticky i).guardInput = s.guardInput := rfl
@[simp] theorem setSticky_ctx (s : State) (i : Nat) : (s.setSticky i).ctx = s.ctx := rfl
@[simp] theorem setSticky_running (s : State) (i : Nat) : (s.setSticky i).running = s.running := rfl
@[simp] theorem setSticky_buffer (s : State) (i : Nat) (b : Buf) : (s.setSticky i).buffer b = s.buffer b := by
  cases b <;> rfl
@[simp] theorem flag_crcMode (s : State) (f : Flag) : (s.flag f).crcMode = s.crcMode := rfl
@[simp] theorem flag_shortAccept (s : State) (f : Flag) : (s.flag f).shortAccept = s.shortAccept := rfl
@[simp] theorem flag_autoAck (s : State) (f : Flag) : (s.flag f).autoAck = s.autoAck := rfl
@[simp] theorem flag_xferCount (s : State) (f : Flag) : (s.flag f).xferCount = s.xferCount := rfl
@[simp] theorem flag_payloadLen (s : State) (f : Flag) : (s.flag f).payloadLen = s.payloadLen := rfl
@[simp] theorem flag_packetLen (s : State) (f : Flag) : (s.flag f).packetLen = s.packetLen := rfl
@[simp] theorem flag_transmitLen (s : State) (f : Flag) : (s.flag f).transmitLen = s.transmitLen := rfl
@[simp] theorem flag_rxLength (s : State) (f : Flag) : (s.flag f).rxLength = s.rxLength := rfl
@[simp] theorem flag_guardInput (s : State) (f : Flag) : (s.flag f).guardInput = s.guardInput := rfl
@[simp] theorem flag_ctx (s : State) (f : Flag) : (s.flag f).ctx = s.ctx := rfl
@[simp] theorem flag_running (s : State) (f : Flag) : (s.flag f).running = s.running := rfl
@[simp] theorem flag_buffer (s : State) (f : Flag) (b : Buf) : (s.flag f).buffer b = s.buffer b := by
  cases b <;> rfl
@[simp] theorem finish_crcMode (s : State) : (finish s).crcMode = s.crcMode := rfl
@[simp] theorem finish_shortAccept (s : State) : (finish s).shortAccept = s.shortAccept := rfl
@[simp] theorem finish_autoAck (s : State) : (finish s).autoAck = s.autoAck := rfl
@[simp] theorem finish_xferCount (s : State) : (finish s).xferCount = s.xferCount := rfl
@[simp] theorem finish_payloadLen (s : State) : (finish s).payloadLen = s.payloadLen := rfl
@[simp] theorem finish_packetLen (s : State) : (finish s).packetLen = s.packetLen := rfl
@[simp] theorem finish_transmitLen (s : State) : (finish s).transmitLen = s.transmitLen := rfl
@[simp] theorem finish_rxLength (s : State) : (finish s).rxLength = s.rxLength := rfl
@[simp] theorem finish_guardInput (s : State) : (finish s).guardInput = s.guardInput := rfl
@[simp] theorem finish_running (s : State) : (finish s).running = false := rfl
@[simp] theorem finish_buffer (s : State) (b : Buf) : (finish s).buffer b = s.buffer b := by
  cases b <;> rfl
@[simp] theorem raise_crcMode (e : ErrCode) (s : State) : (raise e s).crcMode = s.crcMode := rfl
@[simp] theorem raise_shortAccept (e : ErrCode) (s : State) : (raise e s).shortAccept = s.shortAccept := rfl
@[simp] theorem raise_autoAck (e : ErrCode) (s : State) : (raise e s).autoAck = s.autoAck := rfl
@[simp] theorem raise_xferCount (e : ErrCode) (s : State) : (raise e s).xferCount = s.xferCount := rfl
@[simp] theorem raise_payloadLen (e : ErrCode) (s : State) : (raise e s).payloadLen = s.payloadLen := rfl
@[simp] theorem raise_packetLen (e : ErrCode) (s : State) : (raise e s).packetLen = s.packetLen := rfl
@[simp] theorem raise_transmitLen (e : ErrCode) (s : State) : (raise e s).transmitLen = s.transmitLen := rfl
@[simp] theorem raise_rxLength (e : ErrCode) (s : State) : (raise e s).rxLength = s.rxLength := rfl
@[simp] theorem raise_guardInput (e : ErrCode) (s : State) : (raise e s).guardInput = s.guardInput := rfl
@[simp] theorem raise_running (e : ErrCode) (s : State) : (raise e s).running = false := rfl
@[simp] theorem raise_buffer (e : ErrCode) (s : State) (b : Buf) : (raise e s).buffer b = s.buffer b := by
  cases b <;> rfl
@[simp] theorem accept_crcMode (w : Word) (s : State) : (accept w s).crcMode = s.crcMode := rfl
@[simp] theorem accept_shortAccept (w : Word) (s : State) : (accept w s).shortAccept = s.shortAccept := rfl
@[simp] theorem accept_autoAck (w : Word) (s : State) : (accept w s).autoAck = s.autoAck := rfl
@[simp] theorem accept_xferCount (w : Word) (s : State) : (accept w s).xferCount = s.xferCount := rfl
@[simp] theorem accept_payloadLen (w : Word) (s : State) : (accept w s).payloadLen = s.payloadLen := rfl
@[simp] theorem accept_packetLen (w : Word) (s : State) : (accept w s).packetLen = s.packetLen := rfl
@[simp] theorem accept_transmitLen (w : Word) (s : State) : (accept w s).transmitLen = s.transmitLen := rfl
@[simp] theorem accept_rxLength (w : Word) (s : State) : (accept w s).rxLength = s.rxLength := rfl
@[simp] theorem accept_guardInput (w : Word) (s : State) : (accept w s).guardInput = s.guardInput := rfl
@[simp] theorem accept_running (w : Word) (s : State) : (accept w s).running = true := rfl
@[simp] theorem accept_buffer (w : Word) (s : State) (b : Buf) : (accept w s).buffer b = s.buffer b := by
  cases b <;> rfl
@[simp] theorem continueWith_crcMode (s : State) (c : Ctx) : (s.continueWith c).crcMode = s.crcMode := rfl
@[simp] theorem continueWith_shortAccept (s : State) (c : Ctx) : (s.continueWith c).shortAccept = s.shortAccept := rfl
@[simp] theorem continueWith_autoAck (s : State) (c : Ctx) : (s.continueWith c).autoAck = s.autoAck := rfl
@[simp] theorem continueWith_xferCount (s : State) (c : Ctx) : (s.continueWith c).xferCount = s.xferCount := rfl
@[simp] theorem continueWith_payloadLen (s : State) (c : Ctx) : (s.continueWith c).payloadLen = s.payloadLen := rfl
@[simp] theorem continueWith_packetLen (s : State) (c : Ctx) : (s.continueWith c).packetLen = s.packetLen := rfl
@[simp] theorem continueWith_transmitLen (s : State) (c : Ctx) : (s.continueWith c).transmitLen = s.transmitLen := rfl
@[simp] theorem continueWith_rxLength (s : State) (c : Ctx) : (s.continueWith c).rxLength = s.rxLength := rfl
@[simp] theorem continueWith_guardInput (s : State) (c : Ctx) : (s.continueWith c).guardInput = s.guardInput := rfl
@[simp] theorem continueWith_running (s : State) (c : Ctx) : (s.continueWith c).running = true := rfl
@[simp] theorem continueWith_buffer (s : State) (c : Ctx) (b : Buf) : (s.continueWith c).buffer b = s.buffer b := by
  cases b <;> rfl
@[simp] theorem logCall_crcMode (s : State) (ev : LinkEvent) : (s.logCall ev).crcMode = s.crcMode := rfl
@[simp] theorem logCall_shortAccept (s : State) (ev : LinkEvent) : (s.logCall ev).shortAccept = s.shortAccept := rfl
@[simp] theorem logCall_autoAck (s : State) (ev : LinkEvent) : (s.logCall ev).autoAck = s.autoAck := rfl
@[simp] theorem logCall_xferCount (s : State) (ev : LinkEvent) : (s.logCall ev).xferCount = s.xferCount := rfl
@[simp] theorem logCall_payloadLen (s : State) (ev : LinkEvent) : (s.logCall ev).payloadLen = s.payloadLen := rfl
@[simp] theorem logCall_packetLen (s : State) (ev : LinkEvent) : (s.logCall ev).packetLen = s.packetLen := rfl
@[simp] theorem logCall_transmitLen (s : State) (ev : LinkEvent) : (s.logCall ev).transmitLen = s.transmitLen := rfl
@[simp] theorem logCall_rxLength (s : State) (ev : LinkEvent) : (s.logCall ev).rxLength = s.rxLength := rfl
@[simp] theorem logCall_guardInput (s : State) (ev : LinkEvent) : (s.logCall ev).guardInput = s.guardInput := rfl
@[simp] theorem logCall_ctx (s : State) (ev : LinkEvent) : (s.logCall ev).ctx = s.ctx := rfl
@[simp] theorem logCall_running (s : State) (ev : LinkEvent) : (s.logCall ev).running = s.running := rfl
@[simp] theorem logCall_buffer (s : State) (ev : LinkEvent) (b : Buf) : (s.logCall ev).buffer b = s.buffer b := by
  cases b <;> rfl
@[simp] theorem answer_crcMode (s : State) (v : Word) : (s.answer v).crcMode = s.crcMode := rfl
@[simp] theorem answer_shortAccept (s : State) (v : Word) : (s.answer v).shortAccept = s.shortAccept := rfl
@[simp] theorem answer_autoAck (s : State) (v : Word) : (s.answer v).autoAck = s.autoAck := rfl
@[simp] theorem answer_xferCount (s : State) (v : Word) : (s.answer v).xferCount = s.xferCount := rfl
@[simp] theorem answer_payloadLen (s : State) (v : Word) : (s.answer v).payloadLen = s.payloadLen := rfl
@[simp] theorem answer_packetLen (s : State) (v : Word) : (s.answer v).packetLen = s.packetLen := rfl
@[simp] theorem answer_transmitLen (s : State) (v : Word) : (s.answer v).transmitLen = s.transmitLen := rfl
@[simp] theorem answer_rxLength (s : State) (v : Word) : (s.answer v).rxLength = s.rxLength := rfl
@[simp] theorem answer_guardInput (s : State) (v : Word) : (s.answer v).guardInput = s.guardInput := rfl
@[simp] theorem answer_ctx (s : State) (v : Word) : (s.answer v).ctx = s.ctx := rfl
@[simp] theorem answer_running (s : State) (v : Word) : (s.answer v).running = s.running := rfl
@[simp] theorem answer_buffer (s : State) (v : Word) (b : Buf) : (s.answer v).buffer b = s.buffer b := by
  cases b <;> rfl
@[simp] theorem answerFree_crcMode (s : State) (v : Word) : (s.answerFree v).crcMode = s.crcMode := rfl
@[simp] theorem answerFree_shortAccept (s : State) (v : Word) : (s.answerFree v).shortAccept = s.shortAccept := rfl
@[simp] theorem answerFree_autoAck (s : State) (v : Word) : (s.answerFree v).autoAck = s.autoAck := rfl
@[simp] theorem answerFree_xferCount (s : State) (v : Word) : (s.answerFree v).xferCount = s.xferCount := rfl
@[simp] theorem answerFree_payloadLen (s : State) (v : Word) : (s.answerFree v).payloadLen = s.payloadLen := rfl
@[simp] theorem answerFree_packetLen (s : State) (v : Word) : (s.answerFree v).packetLen = s.packetLen := rfl
@[simp] theorem answerFree_transmitLen (s : State) (v : Word) : (s.answerFree v).transmitLen = s.transmitLen := rfl
@[simp] theorem answerFree_rxLength (s : State) (v : Word) : (s.answerFree v).rxLength = s.rxLength := rfl
@[simp] theorem answerFree_guardInput (s : State) (v : Word) : (s.answerFree v).guardInput = s.guardInput := rfl
@[simp] theorem answerFree_ctx (s : State) (v : Word) : (s.answerFree v).ctx = s.ctx := rfl
@[simp] theorem answerFree_running (s : State) (v : Word) : (s.answerFree v).running = s.running := rfl
@[simp] theorem answerFree_buffer (s : State) (v : Word) (b : Buf) : (s.answerFree v).buffer b = s.buffer b := by
  cases b <;> rfl
@[simp] theorem setReceived_crcMode (s : State) (n : Nat) : (s.setReceived n).crcMode = s.crcMode := rfl
@[simp] theorem setReceived_shortAccept (s : State) (n : Nat) : (s.setReceived n).shortAccept = s.shortAccept := rfl
@[simp] theorem setReceived_autoAck (s : State) (n : Nat) : (s.setReceived n).autoAck = s.autoAck := rfl
@[simp] theorem setReceived_xferCount (s : State) (n : Nat) : (s.setReceived n).xferCount = s.xferCount := rfl
@[simp] theorem setReceived_payloadLen (s : State) (n : Nat) : (s.setReceived n).payloadLen = s.payloadLen := rfl
@[simp] theorem setReceived_packetLen (s : State) (n : Nat) : (s.setReceived n).packetLen = s.packetLen := rfl
@[simp] theorem setReceived_transmitLen (s : State) (n : Nat) : (s.setReceived n).transmitLen = s.transmitLen := rfl
@[simp] theorem setReceived_guardInput (s : State) (n : Nat) : (s.setReceived n).guardInput = s.guardInput := rfl
@[simp] theorem setReceived_ctx (s : State) (n : Nat) : (s.setReceived n).ctx = s.ctx := rfl
@[simp] theorem setReceived_running (s : State) (n : Nat) : (s.setReceived n).running = s.running := rfl
@[simp] theorem setReceived_buffer (s : State) (n : Nat) (b : Buf) : (s.setReceived n).buffer b = s.buffer b := by
  cases b <;> rfl

@[simp] theorem flagIf_crcMode (s : State) (c : Bool) (f : Flag) : (s.flagIf c f).crcMode = s.crcMode := by
  cases c <;> rfl
@[simp] theorem endWith_crcMode (e : Option ErrCode) (s : State) : (endWith e s).crcMode = s.crcMode := by
  cases e <;> rfl
@[simp] theorem flagIf_shortAccept (s : State) (c : Bool) (f : Flag) : (s.flagIf c f).shortAccept = s.shortAccept := by
  cases c <;> rfl
@[simp] theorem endWith_shortAccept (e : Option ErrCode) (s : State) : (endWith e s).shortAccept = s.shortAccept := by
  cases e <;> rfl
@[simp] theorem flagIf_autoAck (s : State) (c : Bool) (f : Flag) : (s.flagIf c f).autoAck = s.autoAck := by
  cases c <;> rfl
@[simp] theorem endWith_autoAck (e : Option ErrCode) (s : State) : (endWith e s).autoAck = s.autoAck := by
  cases e <;> rfl
@[simp] theorem flagIf_xferCount (s : State) (c : Bool) (f : Flag) : (s.flagIf c f).xferCount = s.xferCount := by
  cases c <;> rfl
@[simp] theorem endWith_xferCount (e : Option ErrCode) (s : State) : (endWith e s).xferCount = s.xferCount := by
  cases e <;> rfl
@[simp] theorem flagIf_payloadLen (s : State) (c : Bool) (f : Flag) : (s.flagIf c f).payloadLen = s.payloadLen := by
  cases c <;> rfl
@[simp] theorem endWith_payloadLen (e : Option ErrCode) (s : State) : (endWith e s).payloadLen = s.payloadLen := by
  cases e <;> rfl
@[simp] theorem flagIf_packetLen (s : State) (c : Bool) (f : Flag) : (s.flagIf c f).packetLen = s.packetLen := by
  cases c <;> rfl
@[simp] theorem endWith_packetLen (e : Option ErrCode) (s : State) : (endWith e s).packetLen = s.packetLen := by
  cases e <;> rfl
@[simp] theorem flagIf_transmitLen (s : State) (c : Bool) (f : Flag) : (s.flagIf c f).transmitLen = s.transmitLen := by
  cases c <;> rfl
@[simp] theorem endWith_transmitLen (e : Option ErrCode) (s : State) : (endWith e s).transmitLen = s.transmitLen := by
  cases e <;> rfl
@[simp] theorem flagIf_rxLength (s : State) (c : Bool) (f : Flag) : (s.flagIf c f).rxLength = s.rxLength := by
  cases c <;> rfl
@[simp] theorem endWith_rxLength (e : Option ErrCode) (s : State) : (endWith e s).rxLength = s.rxLength := by
  cases e <;> rfl
@[simp] theorem flagIf_guardInput (s : State) (c : Bool) (f : Flag) : (s.flagIf c f).guardInput = s.guardInput := by
  cases c <;> rfl
@[simp] theorem endWith_guardInput (e : Option ErrCode) (s : State) : (endWith e s).guardInput = s.guardInput := by
  cases e <;> rfl
@[simp] theorem flagIf_ctx (s : State) (c : Bool) (f : Flag) : (s.flagIf c f).ctx = s.ctx := by
  cases c <;> rfl
@[simp] theorem flagIf_running (s : State) (c : Bool) (f : Flag) : (s.flagIf c f).running = s.running := by
  cases c <;> rfl
@[simp] theorem endWith_running (e : Option ErrCode) (s : State) : (endWith e s).running = false := by
  cases e <;> rfl
@[simp] theorem flagIf_buffer (s : State) (c : Bool) (f : Flag) (b : Buf) :
    (s.flagIf c f).buffer b = s.buffer b := by
  cases c <;> cases b <;> rfl
@[simp] theorem endWith_buffer (e : Option ErrCode) (s : State) (b : Buf) :
    (endWith e s).buffer b = s.buffer b := by
  cases e <;> cases b <;> rfl

@[simp] theorem setBuffer_buffer_self (s : State) (b : Buf) (m : Memory) :
    (s.setBuffer b m).buffer b = m := by
  cases b <;> rfl

theorem setBuffer_buffer_ne (s : State) {b b' : Buf} (m : Memory) (h : b' ≠ b) :
    (s.setBuffer b m).buffer b' = s.buffer b' := by
  cases b <;> cases b' <;> first | rfl | exact absurd rfl h

/-- A context of a running engine is the one it holds. -/
theorem ctx_of_run {s : State} {c : Ctx} (h : s.engine = .run c) : s.ctx = c := by
  simp [State.ctx, h]

theorem running_of_run {s : State} {c : Ctx} (h : s.engine = .run c) : s.running = true := by
  simp [State.running, h]

theorem running_iff (s : State) : s.running = true ↔ ∃ c, s.engine = .run c := by
  unfold State.running
  cases s.engine <;> simp

theorem not_running_iff (s : State) : s.running = false ↔ s.engine = .idle := by
  unfold State.running
  cases s.engine <;> simp

end Sys2Proof.Machine
end

