-- ==== Sys2Proof/Laws/Ops.lean ====
section
/-! SUPPORT. One lemma per shared operation saying once everything it can do. -/

namespace Sys2Proof.Machine

/-! ### Byte sequences -/

@[simp] theorem be16_length (v : BitVec 16) : (be16 v).length = 2 := rfl

@[simp] theorem be32_length (v : Word) : (be32 v).length = 4 := rfl

@[simp] theorem wireCmd_length (c : Word) : (wireCmd c).length = 4 := rfl

theorem pairSwap_length (s : List Byte) : (pairSwap s).length = s.length := by
  induction s using pairSwap.induct with
  | case1 => rfl
  | case2 a => rfl
  | case3 a b rest ih => simp [pairSwap, ih]

@[simp] theorem ackWire_length (p : Config) : (ackWire p).length = 8 := by
  simp [ackWire, pairSwap_length, ackImage]

@[simp] theorem numbered_length (o : Nat) (bs : List Byte) : (numbered o bs).length = bs.length := by
  induction bs generalizing o with
  | nil => rfl
  | cons b bs ih => simp [numbered, ih]

theorem roundEven_even (x : Nat) : roundEven x % 2 = 0 := by
  unfold roundEven
  omega

theorem le_roundEven (x : Nat) : x ≤ roundEven x := Nat.le_add_right _ _

theorem roundEven_le (x : Nat) : roundEven x ≤ x + 1 := by
  unfold roundEven
  omega

/-- A legal packet, its pad included, fits the buffer (40_packet_codec.md R107). -/
theorem transmitLen_le {s : State} (hc : s.cfg.WellFormed) (hp : s.payloadLen ≤ s.cfg.maxPayload) :
    s.transmitLen ≤ s.cfg.bufSize := by
  obtain ⟨⟨h1, h2, -⟩, h8, -⟩ := hc
  unfold State.transmitLen State.packetLen roundEven
  omega

/-! ### Link calls -/

/-- What a link write that is answered does: the answer is within the contract, the call is logged,
and only the listed answers and the draws move on. -/
theorem linkWrite_some {ep : Byte} {bs : List Byte} {s s1 : State} {a : WriteAnswer}
    (h : linkWrite ep bs s = some (a, s1)) :
    writeWithin bs.length a = true ∧ ∃ rest d, s1 =
      { s.logCall (.write ep bs s.timeout (some a)) with answers := rest, draws := d } ∧
      ((s.answers = .write a :: rest ∧ d = s.draws) ∨
       (s.answers = [] ∧ rest = [] ∧ d = s.draws + 1 ∧
        a = clampWrite bs.length (Config.freeWriteAnswer s.draws))) := by
  unfold linkWrite at h
  split at h
  · rename_i hs
    obtain ⟨rfl, rfl⟩ := Prod.mk.inj (Option.some.inj h)
    refine ⟨?_, [], s.draws + 1, ?_, .inr ⟨hs, rfl, rfl, rfl⟩⟩
    · cases Config.freeWriteAnswer s.draws with
      | ok k => simpa [clampWrite, writeWithin] using Nat.le_of_lt_succ (Nat.mod_lt k (Nat.succ_pos _))
      | err e => rfl
    · simp [State.logCall, hs]
  · rename_i b rest hs
    split at h
    · rename_i hw
      obtain ⟨rfl, rfl⟩ := Prod.mk.inj (Option.some.inj h)
      exact ⟨hw, rest, s.draws, rfl, .inl ⟨hs, rfl⟩⟩
    · cases h
  · cases h

/-- When a link write is not answered: the next listed answer is outside the contract. -/
theorem linkWrite_none_iff (ep : Byte) (bs : List Byte) (s : State) :
    linkWrite ep bs s = none ↔
      (∃ a rest, s.answers = .write a :: rest ∧ writeWithin bs.length a = false) ∨
      (∃ a rest, s.answers = .read a :: rest) := by
  unfold linkWrite
  split
  · rename_i hs; simp [hs]
  · rename_i b rest hs
    by_cases hw : writeWithin bs.length b = true <;> simp [hs, hw]
  · rename_i b rest hs; simp [hs]

/-- What a link read that is answered does. -/
theorem linkRead_some {ep : Byte} {c : Nat} {s s1 : State} {a : ReadAnswer}
    (h : linkRead ep c s = some (a, s1)) :
    readWithin c a = true ∧ ∃ rest d, s1 =
      { s.logCall (.read ep c s.timeout (some a)) with answers := rest, draws := d } ∧
      ((s.answers = .read a :: rest ∧ d = s.draws) ∨
       (s.answers = [] ∧ rest = [] ∧ d = s.draws + 1 ∧
        a = clampRead c (Config.freeReadAnswer s.draws))) := by
  unfold linkRead at h
  split at h
  · rename_i hs
    obtain ⟨rfl, rfl⟩ := Prod.mk.inj (Option.some.inj h)
    refine ⟨?_, [], s.draws + 1, ?_, .inr ⟨hs, rfl, rfl, rfl⟩⟩
    · cases Config.freeReadAnswer s.draws with
      | ok bs => simp [clampRead, readWithin]
      | err e => rfl
    · simp [State.logCall, hs]
  · rename_i b rest hs
    split at h
    · rename_i hw
      obtain ⟨rfl, rfl⟩ := Prod.mk.inj (Option.some.inj h)
      exact ⟨hw, rest, s.draws, rfl, .inl ⟨hs, rfl⟩⟩
    · cases h
  · cases h

/-- When a link read is not answered. -/
theorem linkRead_none_iff (ep : Byte) (c : Nat) (s : State) :
    linkRead ep c s = none ↔
      (∃ a rest, s.answers = .read a :: rest ∧ readWithin c a = false) ∨
      (∃ a rest, s.answers = .write a :: rest) := by
  unfold linkRead
  split
  · rename_i hs; simp [hs]
  · rename_i b rest hs
    by_cases hw : readWithin c b = true <;> simp [hs, hw]
  · rename_i b rest hs; simp [hs]

/-! ### Chunk loops -/

/-- A write loop's step that answers next: the loop had ended, or one call was made and answered. -/
theorem writeLoopStep_next {ep : Byte} {src : List Byte} {fin : Nat → Stop → State → State} {c : Ctx}
    {s t : State} (h : writeLoopStep ep src fin c s = .next t) :
    (c.target ≤ c.cursor ∧ t = fin c.cursor none s) ∨
    (c.cursor < c.target ∧ ∃ a s1,
      linkWrite ep ((src.drop c.cursor).take (chunkSize s c)) s = some (a, s1) ∧
      t = afterWrite fin c a s1) := by
  unfold writeLoopStep at h
  split at h
  · rename_i hlt
    split at h
    · cases h
    · rename_i a s1 hl
      exact .inr ⟨hlt, a, s1, hl, by simpa using h.symm⟩
  · exact .inl ⟨by omega, by simpa using h.symm⟩

/-- A read loop's step that answers next. -/
theorem readLoopStep_next {ep : Byte} {fin : Nat → Stop → State → State} {c : Ctx}
    {s t : State} (h : readLoopStep ep fin c s = .next t) :
    (c.target ≤ c.cursor ∧ t = fin c.cursor none s) ∨
    (c.cursor < c.target ∧ ∃ a s1, linkRead ep (chunkSize s c) s = some (a, s1) ∧
      t = afterRead fin c (chunkSize s c) a s1) := by
  unfold readLoopStep at h
  split at h
  · rename_i hlt
    split at h
    · cases h
    · rename_i a s1 hl
      exact .inr ⟨hlt, a, s1, hl, by simpa using h.symm⟩
  · exact .inl ⟨by omega, by simpa using h.symm⟩

/-- A write loop's step stops only on an answer outside the contract. -/
theorem writeLoopStep_not_next {ep : Byte} {src : List Byte} {fin : Nat → Stop → State → State}
    {c : Ctx} {s : State} (h : ∀ t, writeLoopStep ep src fin c s ≠ .next t) :
    writeLoopStep ep src fin c s = .fault .linkContract ∧ c.cursor < c.target ∧
      linkWrite ep ((src.drop c.cursor).take (chunkSize s c)) s = none := by
  unfold writeLoopStep at h ⊢
  split
  · rename_i hlt
    split
    · rename_i hl; exact ⟨rfl, hlt, hl⟩
    · rename_i hl; simp [hlt, hl] at h
  · rename_i hlt; simp [hlt] at h

/-- A read loop's step stops only on an answer outside the contract. -/
theorem readLoopStep_not_next {ep : Byte} {fin : Nat → Stop → State → State} {c : Ctx} {s : State}
    (h : ∀ t, readLoopStep ep fin c s ≠ .next t) :
    readLoopStep ep fin c s = .fault .linkContract ∧ c.cursor < c.target ∧
      linkRead ep (chunkSize s c) s = none := by
  unfold readLoopStep at h ⊢
  split
  · rename_i hlt
    split
    · rename_i hl; exact ⟨rfl, hlt, hl⟩
    · rename_i hl; simp [hlt, hl] at h
  · rename_i hlt; simp [hlt] at h

/-- Exactly when a write loop's step stops. -/
theorem writeLoopStep_fault_iff (ep : Byte) (src : List Byte) (fin : Nat → Stop → State → State)
    (c : Ctx) (s : State) :
    writeLoopStep ep src fin c s = .fault .linkContract ↔
      c.cursor < c.target ∧ linkWrite ep ((src.drop c.cursor).take (chunkSize s c)) s = none := by
  unfold writeLoopStep
  split
  · split <;> simp_all
  · simp_all

/-- Exactly when a read loop's step stops. -/
theorem readLoopStep_fault_iff (ep : Byte) (fin : Nat → Stop → State → State) (c : Ctx) (s : State) :
    readLoopStep ep fin c s = .fault .linkContract ↔
      c.cursor < c.target ∧ linkRead ep (chunkSize s c) s = none := by
  unfold readLoopStep
  split
  · split <;> simp_all
  · simp_all

/-- What a write loop does with an answer: it ends with an error, goes on, or ends. -/
theorem afterWrite_cases (fin : Nat → Stop → State → State) (c : Ctx) (a : WriteAnswer) (s : State) :
    (∃ e, a = .err e ∧ afterWrite fin c a s =
      fin c.cursor (some .io) ((State.flag { s with linkErr := e } .ioError).flag .shortWrite)) ∨
    (a = .ok 0 ∧ afterWrite fin c a s =
      fin c.cursor (some .zero) ((s.flag .zeroXfer).flag .shortWrite)) ∨
    (∃ k, a = .ok k ∧ 0 < k ∧ c.cursor + k < c.target ∧
      afterWrite fin c a s = s.continueWith { c with cursor := c.cursor + k }) ∨
    (∃ k, a = .ok k ∧ 0 < k ∧ c.target ≤ c.cursor + k ∧
      afterWrite fin c a s = fin (c.cursor + k) none s) := by
  cases a with
  | err e => exact .inl ⟨e, rfl, rfl⟩
  | ok k =>
    by_cases hk : k = 0
    · subst hk; exact .inr (.inl ⟨rfl, rfl⟩)
    · by_cases hlt : c.cursor + k < c.target
      · exact .inr (.inr (.inl ⟨k, rfl, by omega, hlt, by simp [afterWrite, hk, hlt]⟩))
      · exact .inr (.inr (.inr ⟨k, rfl, by omega, by omega, by simp [afterWrite, hk, hlt]⟩))

/-- What a read loop does with an answer: an error, a short chunk, going on, or the end. -/
theorem afterRead_cases (fin : Nat → Stop → State → State) (c : Ctx) (asked : Nat) (a : ReadAnswer)
    (s : State) :
    (∃ e, a = .err e ∧ afterRead fin c asked a s =
      fin c.cursor (some .io) (State.flag { s with linkErr := e } .ioError)) ∨
    (∃ bs, a = .ok bs ∧ bs.length < asked ∧ afterRead fin c asked a s =
      fin (c.cursor + bs.length) none
        (State.flag { s with rxbuf := s.rxbuf.write c.cursor bs } .shortRead)) ∨
    (∃ bs, a = .ok bs ∧ asked ≤ bs.length ∧ c.cursor + bs.length < c.target ∧
      afterRead fin c asked a s = State.continueWith { s with rxbuf := s.rxbuf.write c.cursor bs }
        { c with cursor := c.cursor + bs.length }) ∨
    (∃ bs, a = .ok bs ∧ asked ≤ bs.length ∧ c.target ≤ c.cursor + bs.length ∧
      afterRead fin c asked a s =
        fin (c.cursor + bs.length) none { s with rxbuf := s.rxbuf.write c.cursor bs }) := by
  cases a with
  | err e => exact .inl ⟨e, rfl, rfl⟩
  | ok bs =>
    by_cases hs : bs.length < asked
    · exact .inr (.inl ⟨bs, rfl, hs, by simp [afterRead, hs]⟩)
    · by_cases hlt : c.cursor + bs.length < c.target
      · exact .inr (.inr (.inl ⟨bs, rfl, by omega, hlt, by simp [afterRead, hs, hlt]⟩))
      · exact .inr (.inr (.inr ⟨bs, rfl, by omega, by omega, by simp [afterRead, hs, hlt]⟩))

/-! ### Validation -/

/-- The three ways a CRC comparison ends. -/
theorem compareCrc_cases (d : Nat) (s : State) :
    let c := crc16 s.cfg (s.rxpkt.bytes 4 (d - 4))
    let s1 := State.flag { s with rxCrcComputed := c } .crcChecked
    (c = s.rxCrcEmbedded ∧ compareCrc d s = (s1.flag .rxValid, none)) ∨
    (c ≠ s.rxCrcEmbedded ∧ s.crcMode = 2 ∧ compareCrc d s = (s1.flag .crcMismatch, some .crc)) ∨
    (c ≠ s.rxCrcEmbedded ∧ s.crcMode ≠ 2 ∧
      compareCrc d s = ((s1.flag .crcMismatch).flag .rxValid, none)) := by
  intro c s1
  by_cases hc : c = s.rxCrcEmbedded
  · exact .inl ⟨hc, if_pos hc⟩
  · by_cases hm : s.crcMode = 2
    · exact .inr (.inl ⟨hc, hm, by
        unfold compareCrc
        exact (if_neg hc).trans (if_pos hm)⟩)
    · exact .inr (.inr ⟨hc, hm, by
        unfold compareCrc
        exact (if_neg hc).trans (if_neg hm)⟩)

/-- The ways a validation ends, in the order of its tests (40_packet_codec.md R105). -/
theorem validate_cases (n : Nat) (s : State) :
    (n < s.cfg.hdrLen ∧ validate n s = (s.flag .tooShort, some .tooShort)) ∨
    (s.cfg.hdrLen ≤ n ∧ declaredLen s < s.cfg.hdrLen ∧
      validate n s = ((recoverPacket n s).flag .badLen, some .badLen)) ∨
    (s.cfg.hdrLen ≤ n ∧ s.cfg.hdrLen ≤ declaredLen s ∧ n < declaredLen s ∧ s.shortAccept = true ∧
      validate n s = (((recoverPacket n s).flag .shortPacket).flag .rxValid, none)) ∨
    (s.cfg.hdrLen ≤ n ∧ s.cfg.hdrLen ≤ declaredLen s ∧ n < declaredLen s ∧ s.shortAccept = false ∧
      validate n s = ((recoverPacket n s).flag .shortPacket, some .shortPacket)) ∨
    (s.cfg.hdrLen ≤ n ∧ s.cfg.hdrLen ≤ declaredLen s ∧ declaredLen s ≤ n ∧ s.crcMode = 1 ∧
      validate n s = ((recoverPacket n s).flag .rxValid, none)) ∨
    (s.cfg.hdrLen ≤ n ∧ s.cfg.hdrLen ≤ declaredLen s ∧ declaredLen s ≤ n ∧ s.crcMode ≠ 1 ∧
      validate n s = compareCrc (declaredLen s) (recoverPacket n s)) := by
  unfold validate
  by_cases h1 : n < s.cfg.hdrLen
  · exact .inl ⟨h1, if_pos h1⟩
  · simp only [if_neg h1]
    by_cases h2 : declaredLen s < s.cfg.hdrLen
    · exact .inr (.inl ⟨by omega, h2, if_pos h2⟩)
    · simp only [if_neg h2]
      by_cases h3 : n < declaredLen s
      · simp only [if_pos h3]
        by_cases h4 : s.shortAccept = true
        · exact .inr (.inr (.inl ⟨by omega, by omega, h3, h4, if_pos h4⟩))
        · exact .inr (.inr (.inr (.inl ⟨by omega, by omega, h3, by simpa using h4, if_neg h4⟩)))
      · simp only [if_neg h3]
        by_cases h5 : s.crcMode = 1
        · exact .inr (.inr (.inr (.inr (.inl ⟨by omega, by omega, by omega, h5, if_pos h5⟩))))
        · exact .inr (.inr (.inr (.inr (.inr ⟨by omega, by omega, by omega, h5, if_neg h5⟩))))

/-- Everything a validation can change: flags, RXPKT and the RX_* registers it reports. -/
theorem validate_frame (n : Nat) (s : State) :
    ∃ fl st pkt len cmd emb com, (validate n s).1 =
      { s with flags := fl, sticky := st, rxpkt := pkt, rxLen := len, rxCmd := cmd,
               rxCrcEmbedded := emb, rxCrcComputed := com } := by
  have key := validate_cases n s
  have kc := compareCrc_cases (declaredLen s) (recoverPacket n s)
  rcases key with ⟨-, h⟩ | ⟨-, -, h⟩ | ⟨-, -, -, -, h⟩ | ⟨-, -, -, -, h⟩ | ⟨-, -, -, -, h⟩ | ⟨-, -, -, -, h⟩
  case inr.inr.inr.inr.inr =>
    rw [h]
    rcases kc with ⟨-, hc⟩ | ⟨-, -, hc⟩ | ⟨-, -, hc⟩ <;> rw [hc] <;> exact ⟨_, _, _, _, _, _, _, rfl⟩
  all_goals rw [h]; exact ⟨_, _, _, _, _, _, _, rfl⟩

/-- The RXPKT a validation leaves: unchanged where the packet is too short, and otherwise the swap
window followed by zeros. -/
theorem validate_rxpkt (n : Nat) (s : State) :
    (validate n s).1.rxpkt = if n < s.cfg.hdrLen then s.rxpkt else
      Memory.cleared (pairSwap (s.rxbuf.bytes 0 (swapWindow s n))) := by
  have key := validate_cases n s
  have kc := compareCrc_cases (declaredLen s) (recoverPacket n s)
  rcases key with ⟨h1, h⟩ | ⟨h1, -, h⟩ | ⟨h1, -, -, -, h⟩ | ⟨h1, -, -, -, h⟩ | ⟨h1, -, -, -, h⟩ |
    ⟨h1, -, -, -, h⟩
  case inl => rw [h, if_pos h1]; rfl
  case inr.inr.inr.inr.inr =>
    rw [h, if_neg (by omega)]
    rcases kc with ⟨-, hc⟩ | ⟨-, -, hc⟩ | ⟨-, -, hc⟩ <;> rw [hc] <;> rfl
  all_goals rw [h, if_neg (by omega)]; rfl

theorem swapWindow_le (s : State) (n : Nat) : swapWindow s n ≤ n := Nat.min_le_right _ _

/-- The error codes a validation can raise (60_exceptions.md R184). -/
theorem validate_error (n : Nat) (s : State) :
    (validate n s).2 = none ∨ (validate n s).2 = some .tooShort ∨ (validate n s).2 = some .badLen ∨
    (validate n s).2 = some .shortPacket ∨ (validate n s).2 = some .crc := by
  have key := validate_cases n s
  have kc := compareCrc_cases (declaredLen s) (recoverPacket n s)
  rcases key with ⟨-, h⟩ | ⟨-, -, h⟩ | ⟨-, -, -, -, h⟩ | ⟨-, -, -, -, h⟩ | ⟨-, -, -, -, h⟩ | ⟨-, -, -, -, h⟩
  case inr.inr.inr.inr.inr =>
    rw [h]
    rcases kc with ⟨-, hc⟩ | ⟨-, -, hc⟩ | ⟨-, -, hc⟩ <;> rw [hc] <;> simp
  all_goals rw [h]; simp

/-! ### Encoding -/

/-- Everything `encodeImage` changes. -/
theorem encodeImage_frame (s : State) :
    ∃ m, encodeImage s = { s with txbuf := m, txWireLen := BitVec.ofNat 17 s.transmitLen } := ⟨_, rfl⟩

/-- `encodeImage` keeps TXBUF's canonical form. -/
theorem encodeImage_wf {s : State} (h : s.txbuf.wf = true) : (encodeImage s).txbuf.wf = true := by
  unfold encodeImage
  simp only
  split
  · exact write_wf _ _ (write_wf _ _ (write_wf _ _ (write_wf _ _ h)))
  · exact write_wf _ _ (write_wf _ _ (write_wf _ _ h))

/-- `encodeImage` writes no byte at or above BUF_SIZE. -/
theorem encodeImage_within {s : State} (hc : s.cfg.WellFormed) (hp : s.payloadLen ≤ s.cfg.maxPayload)
    (h : s.txbuf.within s.cfg.bufSize = true) :
    (encodeImage s).txbuf.within s.cfg.bufSize = true := by
  have hT := transmitLen_le hc hp
  have hle := le_roundEven s.packetLen
  have h8 : 8 ≤ s.packetLen := by
    have := hc.2.1
    unfold State.packetLen
    omega
  unfold State.transmitLen at hT
  have base : ((s.txbuf.write 0 (be16 (BitVec.ofNat 16 s.packetLen))).write 4
      (be32 s.txCmd)).within s.cfg.bufSize = true :=
    write_within (write_within h (by simp; omega)) (by simp; omega)
  unfold encodeImage
  simp only
  split
  · rename_i hodd
    refine write_within (write_within base (by simp; omega)) ?_
    unfold roundEven at hT
    simp only [List.length_cons, List.length_nil]
    omega
  · exact write_within base (by simp; omega)

end Sys2Proof.Machine
end

