-- ==== Sys2Proof/Laws/Exec.lean ====
section
/-! SUPPORT. What each meaning can do when it answers a next state, and what a turn and a step can do:
the inversion lemmas that proofs about exec and step start from. -/

namespace Sys2Proof.Machine

/-! ### The codec operations -/

theorem execNop_next {s t : State} (h : execNop s = .next t) : t = finish s := by
  simpa [execNop] using h.symm

theorem execCrc_next {s t : State} (h : execCrc s = .next t) :
    (s.cfg.bufSize < s.xferCount ∧ t = rangeError s) ∨
    (s.xferCount ≤ s.cfg.bufSize ∧
      t = finish { s with crcResult := crc16 s.cfg (s.txbuf.bytes 0 s.xferCount) }) := by
  unfold execCrc at h
  split at h
  · exact .inl ⟨‹_›, by simpa using h.symm⟩
  · exact .inr ⟨by omega, by simpa using h.symm⟩

theorem execSwap_next {s t : State} (h : execSwap s = .next t) :
    (s.cfg.bufSize < s.xferCount ∧ t = rangeError s) ∨
    (s.xferCount ≤ s.cfg.bufSize ∧
      t = finish { s with txbuf := s.txbuf.write 0 (pairSwap (s.txbuf.bytes 0 s.xferCount)) }) := by
  unfold execSwap at h
  split at h
  · exact .inl ⟨‹_›, by simpa using h.symm⟩
  · exact .inr ⟨by omega, by simpa using h.symm⟩

theorem execEncode_next {s t : State} (h : execEncode s = .next t) :
    (s.cfg.maxPayload < s.payloadLen ∧ t = rangeError s) ∨
    (s.payloadLen ≤ s.cfg.maxPayload ∧ t = finish (encodeImage s)) := by
  unfold execEncode at h
  split at h
  · exact .inl ⟨‹_›, by simpa using h.symm⟩
  · exact .inr ⟨by omega, by simpa using h.symm⟩

theorem execDecode_next {s t : State} (h : execDecode s = .next t) :
    (s.cfg.bufSize < s.rxLength ∧ t = rangeError s) ∨
    (s.rxLength ≤ s.cfg.bufSize ∧
      t = endWith (validate s.rxLength (markEarly s.rxLength s)).2
        (validate s.rxLength (markEarly s.rxLength s)).1) := by
  unfold execDecode at h
  split at h
  · exact .inl ⟨‹_›, by simpa using h.symm⟩
  · exact .inr ⟨by omega, by simpa using h.symm⟩

theorem execGuard_next {s t : State} (h : execGuard s = .next t) :
    (s.cfg.guardMaxW < s.guardInput ∧ t = rangeError s) ∨
    (s.guardInput ≤ s.cfg.guardMaxW ∧ t = finish (s.setGuard (guardChunk s.cfg s.guardInput))) := by
  unfold execGuard at h
  split at h
  · exact .inl ⟨‹_›, by simpa using h.symm⟩
  · exact .inr ⟨by omega, by simpa using h.symm⟩

/-! ### The transport operations -/

/-- BULK_WRITE answers next with a range error, or by one step of its write loop. -/
theorem execBulkWrite_next {s t : State} (h : execBulkWrite s = .next t) :
    (s.ctx.stage = .start ∧ s.cfg.bufSize < s.xferCount ∧ t = rangeError s) ∨
    (s.ctx.stage = .start ∧ s.xferCount ≤ s.cfg.bufSize ∧
      writeLoopStep s.cfg.epOut (s.txbuf.bytes 0 s.xferCount) writeDone (s.ctx.loop .chunk s.xferCount)
        (warn512 s.xferCount s) = .next t) ∨
    (s.ctx.stage ≠ .start ∧
      writeLoopStep s.cfg.epOut (s.txbuf.bytes 0 s.ctx.target) writeDone s.ctx s = .next t) := by
  unfold execBulkWrite at h
  split at h
  · rename_i hs
    split at h
    · exact .inl ⟨hs, ‹_›, by simpa using h.symm⟩
    · exact .inr (.inl ⟨hs, by omega, h⟩)
  · rename_i hs
    exact .inr (.inr ⟨fun e => hs e, h⟩)

/-- BULK_READ answers next with a range error, or by one step of its read loop. -/
theorem execBulkRead_next {s t : State} (h : execBulkRead s = .next t) :
    (s.ctx.stage = .start ∧ s.cfg.bufSize < s.xferCount ∧ t = rangeError s) ∨
    (s.ctx.stage = .start ∧ s.xferCount ≤ s.cfg.bufSize ∧
      readLoopStep s.cfg.epIn readDone (s.ctx.loop .chunk s.xferCount) s = .next t) ∨
    (s.ctx.stage ≠ .start ∧ readLoopStep s.cfg.epIn readDone s.ctx s = .next t) := by
  unfold execBulkRead at h
  split at h
  · rename_i hs
    split at h
    · exact .inl ⟨hs, ‹_›, by simpa using h.symm⟩
    · exact .inr (.inl ⟨hs, by omega, h⟩)
  · rename_i hs
    exact .inr (.inr ⟨fun e => hs e, h⟩)

/-- SEND answers next with a range error, or by one step of its write loop. -/
theorem execSend_next {s t : State} (h : execSend s = .next t) :
    (s.ctx.stage = .start ∧ s.cfg.maxPayload < s.payloadLen ∧ t = rangeError s) ∨
    (s.ctx.stage = .start ∧ s.payloadLen ≤ s.cfg.maxPayload ∧
      writeLoopStep s.cfg.epOut (wireImage (sendPrepare s) s.transmitLen) writeDone
        (s.ctx.loop .chunk s.transmitLen) (sendPrepare s) = .next t) ∨
    (s.ctx.stage ≠ .start ∧
      writeLoopStep s.cfg.epOut (wireImage s s.ctx.target) writeDone s.ctx s = .next t) := by
  unfold execSend at h
  split at h
  · rename_i hs
    split at h
    · exact .inl ⟨hs, ‹_›, by simpa using h.symm⟩
    · exact .inr (.inl ⟨hs, by omega, h⟩)
  · rename_i hs
    exact .inr (.inr ⟨fun e => hs e, h⟩)

/-- RECV answers next by one step of its read loop or of its acknowledgement loop. -/
theorem execRecv_next {s t : State} (h : execRecv s = .next t) :
    (s.ctx.stage = .start ∧
      readLoopStep s.cfg.epIn recvReadDone (s.ctx.loop .chunk s.cfg.rxReadLen) s = .next t) ∨
    (s.ctx.stage = .chunk ∧ readLoopStep s.cfg.epIn recvReadDone s.ctx s = .next t) ∨
    (s.ctx.stage = .ackChunk ∧
      writeLoopStep s.cfg.epOut (ackWire s.cfg) recvAckDone s.ctx s = .next t) := by
  unfold execRecv at h
  split at h
  · exact .inl ⟨‹_›, h⟩
  · exact .inr (.inl ⟨‹_›, h⟩)
  · exact .inr (.inr ⟨‹_›, h⟩)

/-- The end of RECV: a validation, ended by its error, else by ACK where the acknowledgement failed. -/
theorem recvValidate_eq (n : Nat) (f : Bool) (s : State) :
    recvValidate n f s =
      endWith ((validate n s).2.or (if f then some .ack else none)) (validate n s).1 := by
  cases h : (validate n s).2 with
  | some e => simp [recvValidate, h, endWith]
  | none => cases f <;> simp [recvValidate, h, endWith]

/-- What RECV does when its read loop ends: an error, the start of the acknowledgement, or the end. -/
theorem recvReadDone_cases (got : Nat) (stop : Stop) (s : State) :
    (∃ e, stop = some e ∧ recvReadDone got stop s = raise e (s.setReceived got)) ∨
    (stop = none ∧ isEarlyFileData got s = true ∧ s.autoAck = true ∧
      recvReadDone got stop s =
        (warn512 8 (markEarly got (s.setReceived got))).continueWith (s.ctx.loop .ackChunk 8)) ∨
    (stop = none ∧ (isEarlyFileData got s && s.autoAck) = false ∧
      recvReadDone got stop s = recvValidate got false (markEarly got (s.setReceived got))) := by
  have he : isEarlyFileData got (s.setReceived got) = isEarlyFileData got s := rfl
  have ha : (markEarly got (s.setReceived got)).autoAck = s.autoAck := by
    simp [State.autoAck, markEarly]
  have hx : (markEarly got (s.setReceived got)).ctx = s.ctx := by simp [markEarly]
  cases stop with
  | some e => exact .inl ⟨e, rfl, rfl⟩
  | none =>
    unfold recvReadDone
    simp only [he, ha, hx]
    by_cases hb : (isEarlyFileData got s && s.autoAck) = true
    · have h2 := Bool.and_eq_true_iff.mp hb
      exact .inr (.inl ⟨trivial, h2.1, h2.2, if_pos hb⟩)
    · exact .inr (.inr ⟨trivial, by simpa using hb, if_neg hb⟩)

/-! ### Turns and steps -/

/-- An engine turn that answers next: the engine is idle, an operation's stage, or a reserved word. -/
theorem engineTurn_next {s t : State} (h : engineTurn s = .next t) :
    (s.engine = .idle ∧ t = s) ∨
    (∃ c i, s.engine = .run c ∧ decode c.word = .ok i ∧ exec i s = .next t) ∨
    (∃ c e, s.engine = .run c ∧ decode c.word = .error e ∧ t = illegalOp s) := by
  unfold engineTurn at h
  split at h
  · rename_i c hc
    unfold engineStep at h
    split at h
    · rename_i i hi
      exact .inr (.inl ⟨c, i, hc, hi, h⟩)
    · rename_i e he
      exact .inr (.inr ⟨c, e, hc, he, by simpa using h.symm⟩)
  · rename_i hc
    exact .inl ⟨hc, by simpa using h.symm⟩

/-- A step that answers next is one of the five turns. -/
theorem step_next {s t : State} (h : step s = .next t) :
    (s.schedule = [] ∧ engineTurn s = .next t) ∨
    (∃ rest, s.schedule = .engine :: rest ∧ engineTurn { s with schedule := rest } = .next t) ∨
    (∃ a rest, s.schedule = .host a :: rest ∧ t = hostStep a { s with schedule := rest }) ∨
    (∃ rest, s.schedule = .reset :: rest ∧ t = blockReset { s with schedule := rest }) ∨
    (∃ rest, s.schedule = .resetInCall :: rest ∧ t = resetInCall { s with schedule := rest }) := by
  unfold step nextTurn at h
  split at h
  · exact .inl ⟨‹_›, h⟩
  · rename_i x rest hs
    cases x with
    | engine => exact .inr (.inl ⟨rest, hs, h⟩)
    | host a => exact .inr (.inr (.inl ⟨a, rest, hs, by simpa [takeTurn] using h.symm⟩))
    | reset => exact .inr (.inr (.inr (.inl ⟨rest, hs, by simpa [takeTurn] using h.symm⟩)))
    | resetInCall => exact .inr (.inr (.inr (.inr ⟨rest, hs, by simpa [takeTurn] using h.symm⟩)))

/-! ### Host steps -/

/-- Everything a host read can change: the value returned, the draws, and STICKY. -/
theorem hostRead_frame (a : Addr) (n : Width) (s : State) :
    ∃ st rd d, hostRead a n s = { s with sticky := st, readData := rd, draws := d } := by
  unfold hostRead
  split
  · split
    · exact ⟨_, _, _, rfl⟩
    · split <;> exact ⟨_, _, _, rfl⟩
  · split <;> exact ⟨_, _, _, rfl⟩
  · exact ⟨_, _, _, rfl⟩

/-- A host write is ignored or only sets a STICKY bit, or writes a register that is not protected at
the time, or one buffer byte below BUF_SIZE of an idle block. -/
theorem hostWrite_cases (a : Addr) (n : Width) (v : Word) (s : State) :
    (∃ st, hostWrite a n v s = { s with sticky := st }) ∨
    (∃ r, regOfOffset a.toNat = some r ∧ placeOf s.cfg.bufSize a n = .reg a.toNat ∧
      (s.running && regProtected r) = false ∧ hostWrite a n v s = regWrite r v s) ∨
    (∃ b o, placeOf s.cfg.bufSize a n = .buffer b o ∧ o < s.cfg.bufSize ∧ s.running = false ∧
      hostWrite a n v s = s.setBuffer b ((s.buffer b).write o [v.extractLsb' 0 8])) := by
  have hplace : ∀ o, placeOf s.cfg.bufSize a n = .reg o → o = a.toNat := by
    intro o ho
    unfold placeOf bufferPlace at ho
    simp only at ho
    split at ho
    · split at ho
      · simpa using ho.symm
      · cases ho
    · split at ho
      · cases ho
      · split at ho
        · split at ho <;> cases ho
        · split at ho
          · split at ho <;> cases ho
          · split at ho <;> cases ho
  have hbuf : ∀ b o, placeOf s.cfg.bufSize a n = .buffer b o → o < s.cfg.bufSize := by
    intro b o ho
    unfold placeOf bufferPlace at ho
    simp only at ho
    split at ho
    · split at ho <;> cases ho
    · split at ho
      · cases ho
      · split at ho
        · split at ho
          · rename_i hh; obtain ⟨-, rfl⟩ := Place.buffer.inj ho; exact hh.2
          · cases ho
        · split at ho
          · split at ho
            · rename_i hh; obtain ⟨-, rfl⟩ := Place.buffer.inj ho; exact hh.2
            · cases ho
          · split at ho
            · rename_i hh; obtain ⟨-, rfl⟩ := Place.buffer.inj ho; exact hh.2
            · cases ho
  unfold hostWrite
  split
  · rename_i o ho
    have := hplace o ho
    subst this
    split
    · exact .inl ⟨_, rfl⟩
    · rename_i r hr
      split
      · exact .inl ⟨_, rfl⟩
      · rename_i hb
        exact .inr (.inl ⟨r, hr, ho, by simpa using hb, rfl⟩)
  · rename_i b o ho
    split
    · exact .inl ⟨_, rfl⟩
    · rename_i hb
      exact .inr (.inr ⟨b, o, ho, hbuf b o ho, by simpa using hb, rfl⟩)
  · exact .inl ⟨_, rfl⟩

end Sys2Proof.Machine
end

