-- ==== Sys2Proof/Laws/Frames.lean ====
section
/-! SUPPORT. The algebra of the frame predicates of Safety.lean, what a loop step does with a listed link
answer, and the frames of the operations that only flag. -/

namespace Sys2Proof.Machine

/-! ### FlagsAdded -/

theorem flagsAdded_refl (s : State) : FlagsAdded [] s s := ⟨by simp, by simp, rfl, rfl⟩

theorem flagsAdded_trans {fs gs : List Flag} {s t u : State} (h : FlagsAdded fs s t)
    (k : FlagsAdded gs t u) : FlagsAdded (fs ++ gs) s u := by
  refine ⟨fun f => ?_, fun f => ?_, k.2.2.1.trans h.2.2.1, k.2.2.2.trans h.2.2.2⟩
  · rw [k.1, h.1]; simp [Bool.or_assoc]
  · rw [k.2.1, h.2.1]; simp [Bool.or_assoc]

/-- Only FLAGS and STICKY count. -/
theorem flagsAdded_congr {fs : List Flag} {s t u v : State} (h : FlagsAdded fs s t)
    (hf : u.flags = s.flags) (hs : u.sticky = s.sticky) (hf' : v.flags = t.flags)
    (hs' : v.sticky = t.sticky) : FlagsAdded fs u v := by
  simpa [FlagsAdded, State.hasFlag, State.hasSticky, hf, hs, hf', hs'] using h

/-- Only which flags are listed counts. -/
theorem flagsAdded_perm {fs gs : List Flag} {s t : State} (h : FlagsAdded fs s t)
    (e : ∀ f, f ∈ fs ↔ f ∈ gs) : FlagsAdded gs s t := by
  unfold FlagsAdded at *
  simpa only [e] using h

theorem flagsAdded_of_eq {s t : State} (hf : t.flags = s.flags) (hs : t.sticky = s.sticky) :
    FlagsAdded [] s t := flagsAdded_congr (flagsAdded_refl s) rfl rfl hf hs

/-- What `flag` does, which is R12's "sets bit F of FLAGS and of STICKY". -/
theorem hasFlag_flag (s : State) (f g : Flag) : (s.flag f).hasFlag g = (s.hasFlag g || decide (g = f)) := by
  simp only [State.hasFlag, flag_flags, BitVec.getLsbD_or]
  cases f <;> cases g <;> simp [Flag.bit]

/-! ### Operations that only flag -/

/-- Everything `flagIf` can change, and with it `warn512` and `markEarly`. -/
theorem flagIf_frame (c : Bool) (f : Flag) (s : State) :
    ∃ fl st, s.flagIf c f = { s with flags := fl, sticky := st } := by
  unfold State.flagIf
  split <;> exact ⟨_, _, rfl⟩

theorem warn512_frame (n : Nat) (s : State) :
    ∃ fl st, warn512 n s = { s with flags := fl, sticky := st } := flagIf_frame _ _ s

theorem markEarly_frame (n : Nat) (s : State) :
    ∃ fl st, markEarly n s = { s with flags := fl, sticky := st } := flagIf_frame _ _ s

/-! ### Loop steps over a listed answer -/

theorem linkWrite_listed {ep : Byte} {bs : List Byte} {s : State} {a : WriteAnswer}
    {rest : List LinkAnswer} (h : s.answers = .write a :: rest) (hw : writeWithin bs.length a = true) :
    linkWrite ep bs s =
      some (a, { s.logCall (.write ep bs s.timeout (some a)) with answers := rest }) := by
  simp [linkWrite, h, hw]

theorem linkRead_listed {ep : Byte} {n : Nat} {s : State} {a : ReadAnswer} {rest : List LinkAnswer}
    (h : s.answers = .read a :: rest) (hw : readWithin n a = true) :
    linkRead ep n s =
      some (a, { s.logCall (.read ep n s.timeout (some a)) with answers := rest }) := by
  simp [linkRead, h, hw]

theorem writeLoopStep_listed {ep : Byte} {src : List Byte} {fin : Nat → Stop → State → State}
    {c : Ctx} {s : State} {a : WriteAnswer} {rest : List LinkAnswer} (hlt : c.cursor < c.target)
    (h : s.answers = .write a :: rest)
    (hw : writeWithin ((src.drop c.cursor).take (chunkSize s c)).length a = true) :
    writeLoopStep ep src fin c s = .next (afterWrite fin c a
      { s.logCall (.write ep ((src.drop c.cursor).take (chunkSize s c)) s.timeout (some a))
        with answers := rest }) := by
  unfold writeLoopStep
  rw [if_pos hlt, linkWrite_listed h hw]

theorem readLoopStep_listed {ep : Byte} {fin : Nat → Stop → State → State} {c : Ctx} {s : State}
    {a : ReadAnswer} {rest : List LinkAnswer} (hlt : c.cursor < c.target)
    (h : s.answers = .read a :: rest) (hw : readWithin (chunkSize s c) a = true) :
    readLoopStep ep fin c s = .next (afterRead fin c (chunkSize s c) a
      { s.logCall (.read ep (chunkSize s c) s.timeout (some a)) with answers := rest }) := by
  unfold readLoopStep
  rw [if_pos hlt, linkRead_listed h hw]

/-! ### Buffers -/

/-- A chunk of a buffer's prefix is the buffer's bytes from there on. -/
theorem bytes_drop_take (m : Memory) (a total n : Nat) (h : a + n ≤ total) :
    ((m.bytes 0 total).drop a).take n = m.bytes a n := by
  apply List.ext_getElem
  · simp; omega
  · intro i h1 h2
    rw [bytes_getElem, List.getElem_take, List.getElem_drop, bytes_getElem]
    simp

theorem read_eq_getD_bytes (m : Memory) (n i : Nat) (h : i < n) :
    m.read i = (m.bytes 0 n).getD i 0 := by
  rw [List.getD_eq_getElem _ _ (by simpa using h), bytes_getElem]
  simp

theorem cleared_bytes (img : List Byte) (a n : Nat) (h : a + n ≤ img.length) :
    (Memory.cleared img).bytes a n = (img.drop a).take n := by
  apply List.ext_getElem
  · simp; omega
  · intro i h1 h2
    rw [bytes_getElem, cleared_read]
    simp at h1
    rw [List.getD_eq_getElem _ _ (by omega)]
    simp

/-! ### Places -/

theorem regOfOffset_regOffset (r : Reg) : regOfOffset (regOffset r) = some r := by
  cases r <;> rfl

theorem placeOf_regOffset (bufSize : Nat) (r : Reg) (a : Addr) (ha : a.toNat = regOffset r) :
    placeOf bufSize a .word = .reg (regOffset r) := by
  unfold placeOf
  cases r <;> simp [ha, regOffset]

theorem placeOf_buffer (bufSize : Nat) (b : Buf) (o : Nat) (h : o < bufSize) (h' : o < 0x10000)
    (a : Addr) (ha : a.toNat = bufBase b + o) : placeOf bufSize a .byte = .buffer b o := by
  unfold placeOf bufferPlace
  generalize a.toNat = x at *
  subst ha
  cases b
  · show (if _ then _ else _) = _
    rw [if_neg (by simp [bufBase]; omega), if_neg (by simp [bufBase]),
      if_pos (by simp [bufBase]; omega), Nat.add_sub_cancel_left, if_pos ⟨rfl, h⟩]
  · show (if _ then _ else _) = _
    rw [if_neg (by simp [bufBase]; omega), if_neg (by simp [bufBase]; omega),
      if_neg (by simp [bufBase]), if_pos (by simp [bufBase]; omega), Nat.add_sub_cancel_left,
      if_pos ⟨rfl, h⟩]
  · show (if _ then _ else _) = _
    rw [if_neg (by simp [bufBase]; omega), if_neg (by simp [bufBase]; omega),
      if_neg (by simp [bufBase]; omega), if_neg (by simp [bufBase]), Nat.add_sub_cancel_left,
      if_pos ⟨rfl, h⟩]

end Sys2Proof.Machine
end

