-- ==== Sys2Proof/Laws/PerInstr.lean ====
section
/-! SUPPORT. The statements made of every operation, one lemma per constructor of Instr. -/

/-- The operation word of i is well formed: i is well formed, the word is not reserved, its MBZ field is
zero and its OPC field is the operation's code (30_encoding.md R80, R81). -/
def Sys2Proof.Laws.LegalWord.Statement (i : Sys2Proof.Instr) : Prop :=
  i.wellFormed = true ∧ Sys2Proof.OpWordLegal (Sys2Proof.encode i) ∧
    Sys2Proof.mbzOf (Sys2Proof.encode i) = 0 ∧ Sys2Proof.opcOf (Sys2Proof.encode i) = i.opc

namespace Sys2Proof.Laws.LegalWord

theorem nop : Statement .nop := by unfold Statement; decide
theorem crc : Statement .crc := by unfold Statement; decide
theorem swap : Statement .swap := by unfold Statement; decide
theorem encode : Statement .encode := by unfold Statement; decide
theorem decode : Statement .decode := by unfold Statement; decide
theorem bulkWrite : Statement .bulkWrite := by unfold Statement; decide
theorem bulkRead : Statement .bulkRead := by unfold Statement; decide
theorem send : Statement .send := by unfold Statement; decide
theorem recv : Statement .recv := by unfold Statement; decide
theorem guard : Statement .guard := by unfold Statement; decide

end Sys2Proof.Laws.LegalWord
end

