-- ==== Sys2Proof/Tests/Slice0.lean ====
section
/-! SUPPORT. The model's own tests: the WellFormed smoke test, each operation's word written out from the
encoding, one step of each operation on a vector of spec/95_test_vectors.md (named in each comment), and
for every obligation with hypotheses a state and operands that meet them. -/

namespace Sys2Proof.Tests

-- One theorem at a time: in parallel, the many kernel evaluations below outrun the thread limit.
set_option Elab.async false

open Sys2Proof.Machine

/-! ### WellFormed: a term for each check, which the check refuses -/

theorem test_legal_words : OpWordLegal 0x00000000 ∧ OpWordLegal 0x00000009 := by decide
theorem test_illformed_word_opc : ¬ OpWordLegal 0x0000000A := by decide
theorem test_illformed_word_mbz : ¬ OpWordLegal 0x00000107 := by decide
theorem test_default_config : Config.default.WellFormed := by constructor <;> decide
theorem test_illformed_payload : ¬ Config.Legal { Config.default with maxPayload := 65528 } := by decide
theorem test_illformed_buffer : ¬ Config.Legal { Config.default with bufSize := 65535 } := by decide
theorem test_illformed_window : ¬ Config.Legal { Config.default with bufSize := 65537 } := by decide
theorem test_illformed_read : ¬ Config.Legal { Config.default with rxReadLen := 65537 } := by decide
theorem test_illformed_chunk : ¬ Config.Legal { Config.default with chunkMax := 0 } := by decide
theorem test_illformed_overhead : ¬ Config.Legal { Config.default with offsetLen := 7 } := by decide
theorem test_illformed_guard : ¬ Config.Legal { Config.default with guardMaxW := 65520 } := by decide
theorem test_illformed_shrink_odd : ¬ Config.Legal { Config.default with guardShrink := 3 } := by decide
theorem test_illformed_shrink_zero : ¬ Config.Legal { Config.default with guardShrink := 0 } := by decide
theorem test_illformed_shrink_large : ¬ Config.Legal { Config.default with guardShrink := 512 } := by decide
theorem test_illformed_m512_odd : ¬ Config.Legal { Config.default with m512 := 511 } := by decide
theorem test_illformed_header : ¬ Config.Coherent { Config.default with hdrLen := 10 } := by decide
theorem test_illformed_packet : ¬ Config.Coherent { Config.default with maxPacket := 65536 } := by decide
theorem test_illformed_rewind : ¬ Config.Coherent { Config.default with guardShrink := 256 } := by decide
theorem test_illformed_no_progress : ¬ Config.Coherent { Config.default with m512 := 20 } := by decide

/-! ### Decoding: format OPWORD, MBZ (31:8) then OPC (7:0) (30_encoding.md R80, R81) -/

theorem test_decode_nop : decode 0b00000000000000000000000000000000 = .ok .nop := by decide
theorem test_decode_crc : decode 0b00000000000000000000000000000001 = .ok .crc := by decide
theorem test_decode_swap : decode 0b00000000000000000000000000000010 = .ok .swap := by decide
theorem test_decode_encode : decode 0b00000000000000000000000000000011 = .ok .encode := by decide
theorem test_decode_decode : decode 0b00000000000000000000000000000100 = .ok .decode := by decide
theorem test_decode_bulkWrite : decode 0b00000000000000000000000000000101 = .ok .bulkWrite := by decide
theorem test_decode_bulkRead : decode 0b00000000000000000000000000000110 = .ok .bulkRead := by decide
theorem test_decode_send : decode 0b00000000000000000000000000000111 = .ok .send := by decide
theorem test_decode_recv : decode 0b00000000000000000000000000001000 = .ok .recv := by decide
theorem test_decode_guard : decode 0b00000000000000000000000000001001 = .ok .guard := by decide
theorem test_decode_reserved : decode 0b00000000000000000000000000001010 = .error .reservedOpc := by
  decide
theorem test_decode_mbz : decode 0b10000000000000000000000000000000 = .error .mbzSet := by decide
theorem test_table_word_guard : decodeTableWord 32 0x00000009 = some .guard := by decide
theorem test_table_word_mbz : decodeTableWord 32 0x80000000 = none := by decide

/-! ### Helpers: a small state with an operation accepted, and what a step left -/

/-- The reset state with operation word w accepted. -/
def accepted (w : Word) : State := accept w State.reset

/-- A buffer that holds bs from offset o on, over the reset contents. -/
def filled (o : Nat) (bs : List Byte) : Memory := Memory.write { cells := [], fill := .unwritten 0 } o bs

/-- What a step's next state shows, `none` where the step stopped. -/
def after {α : Type} (r : Result) (f : State → α) : Option α :=
  match r with
  | .next t => some (f t)
  | .fault _ => none
  | .refused _ => none

/-- STATUS, FLAGS and one more register. -/
def seen (r : Reg) (t : State) : Word × Word × Word :=
  (regValue t .status, regValue t .flags, regValue t r)

/-- A context in the chunk stage. -/
def chunkCtx (w : Word) (cursor target : Nat) : Ctx :=
  { word := w, stage := .chunk, cursor := cursor, target := target }

/-- A running state in the middle of a loop. -/
def inLoop (c : Ctx) : State := { accepted c.word with engine := .run c }

/-- The wire image of V-E11 (spec/95_test_vectors.md 2.4). -/
def fileDataWire : List Byte :=
  [0x13, 0x00, 0x2E, 0x38, 0x00, 0x00, 0x0A, 0x10, 0, 0, 0, 0, 0, 0, 0, 0, 0x22, 0x11, 0x00, 0x33]

/-! ### One step of each operation -/

/-- V-N1. -/
theorem test_nop : after (exec .nop (accept 0 { State.reset with flags := 4 })) (seen .chunks) =
    some (0x00000002, 0, 0) := by decide

/-- V-C2. -/
theorem test_crc : after (exec .crc { accepted 1 with
      xferLen := 9
      txbuf := filled 0 [0x31, 0x32, 0x33, 0x34, 0x35, 0x36, 0x37, 0x38, 0x39] }) (seen .crcResult) =
    some (0x00000102, 0, 0x0000BB3D) := by decide +kernel

/-- V-C12. -/
theorem test_crc_range : after (exec .crc { accepted 1 with xferLen := 65537 }) (seen .crcResult) =
    some (0x00020102, 0x00010000, 0) := by decide +kernel

/-- V-SW1. -/
theorem test_swap : after (exec .swap { accepted 2 with
      xferLen := 5, txbuf := filled 0 [0x01, 0x02, 0x03, 0x04, 0x05] }) (fun t => t.txbuf.bytes 0 5) =
    some [0x02, 0x01, 0x04, 0x03, 0x05] := by decide +kernel

/-- V-SW3. -/
theorem test_swap_one : after (exec .swap { accepted 2 with
      xferLen := 1, txbuf := filled 0 [0xAA, 0xBB] }) (fun t => t.txbuf.bytes 0 2) =
    some [0xAA, 0xBB] := by decide +kernel

/-- V-E8: an odd payload, its pad byte written over 0xFF. -/
theorem test_encode_odd : after (exec .encode { accepted 3 with
      txCmd := 0x00001002, txPlen := 3, txbuf := filled 8 [0x41, 0x42, 0x43, 0xFF] })
      (fun t => (t.txbuf.bytes 0 12, regValue t .txWireLen)) =
    some ([0x00, 0x0B, 0x3E, 0xE1, 0x00, 0x00, 0x10, 0x02, 0x41, 0x42, 0x43, 0x00], 12) := by
  decide +kernel

/-- V-E15. -/
theorem test_encode_range : after (exec .encode { accepted 3 with txPlen := 65528 })
    (seen .txWireLen) = some (0x00020302, 0x00010000, 0) := by decide +kernel

/-- V-D2a: a mismatch in WARN mode is flagged and accepted. -/
theorem test_decode_warn : after (exec .decode { accepted 4 with
      rxCount := 8, rxbuf := filled 0 [0x08, 0x00, 0x81, 0xC1, 0x00, 0x00, 0x03, 0x00] })
      (seen .rxCrc) = some (0x00000402, 0x0000000E, 0x0140C181) := by decide +kernel

/-- V-D11a: shorter than declared. -/
theorem test_decode_short : after (exec .decode { accepted 4 with
      rxCount := 10
      rxbuf := filled 0 [0x0B, 0x00, 0xE1, 0x3E, 0x00, 0x00, 0x02, 0x10, 0x42, 0x41] })
      (fun t => (seen .rxLen t, t.rxpkt.bytes 0 12)) =
    some ((0x00070402, 0x00002000, 11),
      [0x00, 0x0B, 0x3E, 0xE1, 0x00, 0x00, 0x10, 0x02, 0x41, 0x42, 0x00, 0x00]) := by
  decide +kernel

/-- V-W1. -/
theorem test_bulkWrite_none : after (exec .bulkWrite (accepted 5)) (seen .resultCount) =
    some (0x00000502, 0x00000001, 0) := by decide +kernel

/-- V-W9, its second chunk: 60 bytes offered from byte 40 on, none taken. -/
theorem test_bulkWrite_zero : after (exec .bulkWrite { inLoop (chunkCtx 5 40 100) with
      answers := [.write (.ok 0)] }) (seen .resultCount) =
    some (0x00040502, 0x00000500, 0x28) := by decide +kernel

/-- V-R7. -/
theorem test_bulkRead_short : after (exec .bulkRead { accepted 6 with
      xferLen := 10, answers := [.read (.ok [0x0A, 0x0B, 0x0C])] })
      (fun t => (seen .rxCount t, t.rxbuf.bytes 0 3)) =
    some ((0x00000602, 0x00000080, 3), [0x0A, 0x0B, 0x0C]) := by decide +kernel

/-- V-R6, its second chunk. -/
theorem test_bulkRead_error : after (exec .bulkRead { inLoop (chunkCtx 6 4096 65536) with
      answers := [.read (.err 5)] }) (fun t => (seen .rxCount t, t.linkErr)) =
    some ((0x00030602, 0x00000200, 0x1000), 5) := by decide +kernel

/-- V-S1: the logical image stays in TXBUF, the wire image goes out. -/
theorem test_send : after (exec .send { accepted 7 with
      txCmd := 0x00000100, answers := [.write (.ok 8)] })
      (fun t => (seen .resultCount t, t.txbuf.bytes 0 8, t.linkLog)) =
    some ((0x00000702, 0, 8), [0x00, 0x08, 0x90, 0x01, 0x00, 0x00, 0x01, 0x00],
      [.write 0x01 [0x08, 0x00, 0x01, 0x90, 0x00, 0x00, 0x00, 0x01] 0 (some (.ok 8))]) := by
  decide +kernel

/-- V-S9. -/
theorem test_send_range : after (exec .send { accepted 7 with txPlen := 65528 }) (seen .txWireLen) =
    some (0x00020702, 0x00010000, 0) := by decide +kernel

/-- V-F1. -/
theorem test_recv : after (exec .recv { accepted 8 with
      answers := [.read (.ok [0x08, 0x00, 0x81, 0xC1, 0x00, 0x00, 0x02, 0x00])] }) (seen .rxCmd) =
    some (0x00000802, 0x0000008A, 0x00000002) := by decide +kernel

/-- V-F4, its acknowledgement step: the validation's flags, then ERR ACK. -/
theorem test_recv_ack_error : after (exec .recv { accepted 8 with
      engine := .run { word := 8, stage := .ackChunk, cursor := 0, target := 8 }
      flags := 0x90, rxCount := 20, resultCount := 20, rxbuf := filled 0 fileDataWire
      answers := [.write (.err 4)] }) (fun t => (seen .rxCrc t, t.linkErr)) =
    some ((0x00090802, 0x000006DA, 0x382E382E), 4) := by decide +kernel

/-- V-G7. -/
theorem test_guard_hit : after (exec .guard { accepted 9 with guardW := 496 }) (seen .guardOut) =
    some (0x00000902, 0x00004000, 0x000401EC) := by decide +kernel

/-- V-G19. -/
theorem test_guard_range : after (exec .guard { accepted 9 with guardW := 65519 }) (seen .guardOut) =
    some (0x00020902, 0x00010000, 0) := by decide +kernel

/-- V-X2: a word with an MBZ bit set. -/
theorem test_reserved_word : after (engineTurn (accepted 0x00000107)) (seen .chunks) =
    some (0x00010702, 0x00008000, 0) := by decide +kernel

/-! ### Witnesses: for each obligation with hypotheses, a state and operands that meet them all

Each theorem is named after the obligation and conjoins its hypotheses, clause by clause, at boundary
values. `runs` says that a step answered a next state. -/

/-- Whether a step answered a next state. -/
def runs (r : Result) : Bool :=
  match r with
  | .next _ => true
  | .fault _ => false
  | .refused _ => false

/-- The conditions of State.Inv for a running state over the default parameters. -/
theorem inv_of_running {s : State} {c : Ctx} (he : s.engine = .run c) (hcfg : s.cfg = Config.default)
    (hwf : (s.txbuf.wf && s.rxbuf.wf && s.rxpkt.wf) = true)
    (hin : (s.txbuf.within 65536 && s.rxbuf.within 65536 && s.rxpkt.within 65536) = true)
    (hst : s.status = { busy := true, done := false, lastOp := opcOf c.word, err := 0 })
    (hm : s.crcMode ≠ 3) (hv : CtxValid s c) : s.Inv := by
  simp only [Bool.and_eq_true] at hwf hin
  have hr : s.running = true := by simp [State.running, he]
  refine ⟨?_, ?_, ?_, ?_, ?_, ?_, hm, ?_, ?_⟩
  · rw [hcfg]; exact test_default_config
  · intro b; cases b
    · exact hwf.1.1
    · exact hwf.1.2
    · exact hwf.2
  · intro b; rw [hcfg]; cases b
    · exact hin.1.1
    · exact hin.1.2
    · exact hin.2
  · rw [hst, hr]
  · intro _; rw [hst]; exact ⟨rfl, rfl⟩
  · rw [hst]; exact Nat.zero_le _
  · intro c' hc; rw [he] at hc; cases hc; rw [hst]
  · intro c' hc; rw [he] at hc; cases hc; exact hv

/-- An operation just accepted, with any operands, meets the invariant. -/
theorem inv_of_accepted {s : State} (w : Word) (he : s.engine = .run ⟨w, .start, 0, 0⟩)
    (hcfg : s.cfg = Config.default) (hwf : (s.txbuf.wf && s.rxbuf.wf && s.rxpkt.wf) = true)
    (hin : (s.txbuf.within 65536 && s.rxbuf.within 65536 && s.rxpkt.within 65536) = true)
    (hst : s.status = { busy := true, done := false, lastOp := opcOf w, err := 0 })
    (hm : s.crcMode ≠ 3) : s.Inv :=
  inv_of_running he hcfg hwf hin hst hm ⟨rfl, rfl⟩

theorem witness_ReservedWordEndsIllegal : State.reset.engine = .idle ∧
    ¬ OpWordLegal 0x0000000A ∧ ¬ OpWordLegal 0x00000107 ∧ ¬ OpWordLegal 0xFFFFFFFF := by decide

theorem witness_OpWriteAcceptsOperation : State.reset.engine = .idle := by decide

theorem witness_StepRunsDecodedOperation :
    (accepted 0).engine = .run ⟨0, .start, 0, 0⟩ ∧ decode 0 = .ok .nop ∧ (accepted 0).schedule = [] ∧
    ({ accepted 0 with schedule := [.engine] } : State).schedule = .engine :: [] := by decide

theorem witness_IdleBlockHoldsState :
    State.reset.engine = .idle ∧ runs (step State.reset) = true ∧ State.reset.schedule = [] ∧
    runs (step { State.reset with schedule := [.engine] }) = true ∧
    after (step { State.reset with schedule := [.host (.write 0 .word 7)] }) (fun t => t.engine) =
      some (.run ⟨7, .start, 0, 0⟩) := by decide

theorem witness_OperationEndsWithItsErrors :
    after (exec .nop (accepted 0)) (fun t => t.engine) = some .idle ∧
    after (exec .bulkWrite { accepted 5 with xferLen := 100, answers := [.write (.ok 40)] })
      (fun t => t.engine) = some (.run (chunkCtx 5 40 100)) := by decide +kernel

/-- ERR 0x02. -/
theorem witness_ErrorCodeHasItsFlags_range :
    ({ accepted 1 with xferLen := 65537 } : State).Inv ∧ decode 1 = .ok .crc ∧
    after (exec .crc { accepted 1 with xferLen := 65537 }) (fun t => t.status.err) = some 0x02 :=
  ⟨inv_of_accepted 1 rfl rfl rfl rfl rfl (by decide), by decide, by decide +kernel⟩

/-- ERR 0x03, of a write. -/
theorem witness_ErrorCodeHasItsFlags_io :
    ({ accepted 5 with xferLen := 100, answers := [.write (.err 7)] } : State).Inv ∧
    decode 5 = .ok .bulkWrite ∧
    after (exec .bulkWrite { accepted 5 with xferLen := 100, answers := [.write (.err 7)] })
      (fun t => t.status.err) = some 0x03 :=
  ⟨inv_of_accepted 5 rfl rfl rfl rfl rfl (by decide), by decide, by decide +kernel⟩

/-- ERR 0x04. -/
theorem witness_ErrorCodeHasItsFlags_zero :
    ({ accepted 7 with answers := [.write (.ok 0)] } : State).Inv ∧ decode 7 = .ok .send ∧
    after (exec .send { accepted 7 with answers := [.write (.ok 0)] })
      (fun t => t.status.err) = some 0x04 :=
  ⟨inv_of_accepted 7 rfl rfl rfl rfl rfl (by decide), by decide, by decide +kernel⟩

/-- ERR 0x05. -/
theorem witness_ErrorCodeHasItsFlags_tooShort :
    (accepted 4).Inv ∧ decode 4 = .ok .decode ∧
    after (exec .decode (accepted 4)) (fun t => t.status.err) = some 0x05 :=
  ⟨inv_of_accepted 4 rfl rfl rfl rfl rfl (by decide), by decide, by decide +kernel⟩

/-- A state in which DECODE is about to read these wire bytes (as V-D1 to V-D14 of
spec/95_test_vectors.md). -/
def decoding (config : BitVec 9) (bs : List Byte) : State :=
  { accepted 4 with config := config, rxCount := BitVec.ofNat 17 bs.length, rxbuf := filled 0 bs }

/-- ERR 0x06, 0x07 and 0x08 (V-D5, V-D14, V-D2c). -/
theorem witness_ErrorCodeHasItsFlags_validate :
    (decoding 0x8 [0x06, 0x00, 0x81, 0xC1, 0x00, 0x00, 0x02, 0x00]).Inv ∧
    after (exec .decode (decoding 0x8 [0x06, 0x00, 0x81, 0xC1, 0x00, 0x00, 0x02, 0x00]))
      (fun t => t.status.err) = some 0x06 ∧
    (decoding 0x8 (fileDataWire.take 8)).Inv ∧
    after (exec .decode (decoding 0x8 (fileDataWire.take 8))) (fun t => t.status.err) = some 0x07 ∧
    (decoding 0xA [0x08, 0x00, 0x81, 0xC1, 0x00, 0x00, 0x03, 0x00]).Inv ∧
    after (exec .decode (decoding 0xA [0x08, 0x00, 0x81, 0xC1, 0x00, 0x00, 0x03, 0x00]))
      (fun t => t.status.err) = some 0x08 :=
  ⟨inv_of_accepted 4 rfl rfl (by decide) (by decide) rfl (by decide), by decide +kernel,
    inv_of_accepted 4 rfl rfl (by decide) (by decide) rfl (by decide), by decide +kernel,
    inv_of_accepted 4 rfl rfl (by decide) (by decide) rfl (by decide), by decide +kernel⟩

/-- RECV with the acknowledgement of a FILE_DATA under way, `sent` bytes of it gone. -/
def acking (sent : Nat) (a : WriteAnswer) : State :=
  { accepted 8 with
    engine := .run { word := 8, stage := .ackChunk, cursor := sent, target := 8 }
    flags := 0x90, rxCount := 20, resultCount := 20, rxbuf := filled 0 fileDataWire
    answers := [.write a] }

/-- ERR 0x09. -/
theorem witness_ErrorCodeHasItsFlags_ack :
    (acking 7 (.ok 0)).Inv ∧ decode 8 = .ok .recv ∧
    after (exec .recv (acking 7 (.ok 0))) (fun t => t.status.err) = some 0x09 :=
  ⟨inv_of_running rfl rfl (by decide) (by decide) rfl (by decide)
    ⟨by decide, rfl, by decide, rfl, by decide, by decide⟩, by decide, by decide +kernel⟩

theorem witness_EngineStepFlagsOnlyItsOwn : runs (exec .recv (acking 0 (.ok 8))) = true := by
  decide +kernel

theorem witness_EngineStepWritesOnlyItsRegisters : runs (exec .guard (accepted 9)) = true := by
  decide

theorem witness_EngineStepWritesOnlyItsBuffers :
    runs (exec .send { inLoop (chunkCtx 7 0 8) with answers := [.write (.ok 8)] }) = true ∧
    (inLoop (chunkCtx 7 0 8)).ctx.stage ≠ .start := by decide +kernel

theorem witness_TraceAndQuietHaveNoEffect :
    (0x1F8 : BitVec 9).extractLsb' 0 4 = State.reset.config.extractLsb' 0 4 ∧
    runs (exec .recv (acking 0 (.ok 8))) = true ∧
    exec .bulkWrite { accepted 5 with xferLen := 1, answers := [.write (.ok 2)] } =
      .fault .linkContract := ⟨by decide, by decide +kernel, rfl⟩

theorem witness_FlagsAreNoInput : runs (exec .crc { accepted 1 with xferLen := 65537 }) = true ∧
    exec .bulkRead { accepted 6 with xferLen := 1, answers := [.write (.ok 1)] } =
      .fault .linkContract := ⟨by decide +kernel, rfl⟩

/-- A reset, a reset in a call, and a reset in no call. -/
theorem witness_ResetAbandonsOperation :
    runs (step { accepted 5 with schedule := [.reset] }) = true ∧
    runs (step { accepted 5 with schedule := [.resetInCall], xferLen := 1 }) = true ∧
    after (engineTurn State.reset) (fun t => t.linkLog) = some [] := ⟨rfl, rfl, rfl⟩

/-- With no answer listed, a chunk step of BULK_WRITE makes a call, whatever the free answer. -/
theorem witness_ResetAbandonsOperation_call :
    ∃ u, engineTurn (inLoop (chunkCtx 5 99 100)) = .next u ∧ u.linkLog.length = 1 := by
  refine ⟨_, rfl, ?_⟩
  show List.length (State.linkLog (afterWrite _ _ (clampWrite 1 (Config.freeWriteAnswer 3)) _)) = 1
  cases clampWrite 1 (Config.freeWriteAnswer 3) with
  | err e => rfl
  | ok k =>
    unfold afterWrite
    split
    · rfl
    · split
      · rfl
      · split <;> rfl

theorem witness_ResetSatisfiesInvariant : Config.default.WellFormed := test_default_config

theorem witness_StepKeepsInvariant : (accepted 0).Inv ∧ runs (step (accepted 0)) = true :=
  ⟨inv_of_accepted 0 rfl rfl rfl rfl rfl (by decide), by decide⟩

theorem witness_StepKeepsConfiguration : runs (step State.reset) = true := by decide

/-- The last register, the first and last byte of the buffer windows, and each kind of bad access. -/
theorem witness_HostAccessFollowsMap :
    State.reset.engine = .idle ∧ (0x00054 : Addr).toNat = regOffset .param1 ∧
    (0x0004C : Addr).toNat = regOffset .chunks ∧
    65535 < State.reset.cfg.bufSize ∧ (0x3FFFF : Addr).toNat = bufBase .rxpkt + 65535 ∧
    (0x10000 : Addr).toNat = bufBase .txbuf + 0 ∧
    ((0x000FE : Addr).toNat < 0x100 ∧ (0x000FE : Addr).toNat % 4 ≠ 0) ∧
    ((0x000FC : Addr).toNat < 0x100 ∧ Width.half ≠ .word) ∧
    (0x100 ≤ (0x00100 : Addr).toNat ∧ (0x0FFFF : Addr).toNat < 0x10000) ∧
    (0x10000 ≤ (0x10000 : Addr).toNat ∧ Width.word ≠ .byte) ∧
    ({ Config.default with bufSize := 0x100 } : Config).bufSize ≤ (0x10100 : Addr).toNat % 0x10000 := by
  decide

theorem witness_BusyBlockIsProtected : (accepted 5).running = true ∧
    65535 < (accepted 5).cfg.bufSize ∧ (0x00058 : Addr).toNat % 4 = 0 ∧ 0x58 ≤ (0x00058 : Addr).toNat ∧
    (0x000FC : Addr).toNat < 0x100 ∧ (0x000FC : Addr).toNat % 4 = 0 := by decide

theorem witness_StickyIsWriteOneToClear : (accepted 5).running = true ∧
    65535 < (accepted 5).cfg.bufSize ∧
    ((0x000FF : Addr).toNat < 0x100 ∧ (0x000FF : Addr).toNat % 4 ≠ 0) ∧
    (0x100 ≤ (0x0FFFF : Addr).toNat ∧ (0x0FFFF : Addr).toNat < 0x10000) ∧
    (0x10000 ≤ (0x3FFFF : Addr).toNat ∧ Width.half ≠ .byte) := by decide

theorem witness_RegisterMapIsExact : regOfOffset 0x054 = some .param1 := rfl

theorem witness_HostAccessesAreIdempotent : State.reset.engine = .idle ∧
    (0x00010 : Addr).toNat ≠ 0x000 ∧ (0x00010 : Addr).toNat ≠ 0x00C := by decide

theorem witness_ConfigWriteStoresLegalMode : State.reset.engine = .idle := by decide

theorem witness_ReservedStateReadsZero : (0x00058 : Addr).toNat % 4 = 0 ∧
    0x58 ≤ (0x00058 : Addr).toNat ∧ (0x000FC : Addr).toNat < 0x100 := by decide

theorem witness_OperandRegistersReadBack : State.reset.engine = .idle ∧
    (Reg.rxCount, (0x0001FFFF : Word)) ∈ [(Reg.timeout, (0xFFFFFFFF : Word)), (.txCmd, 0xFFFFFFFF),
      (.txPlen, 0x0000FFFF), (.xferLen, 0x0001FFFF), (.guardW, 0x0000FFFF),
      (.rxCount, 0x0001FFFF)] := by decide

theorem witness_PairSwapLaws : 2 * 0 + 1 < ([1, 2] : List Byte).length ∧
    ([1] : List Byte).length % 2 = 1 ∧ ([1, 2] : List Byte).length % 2 = 0 := by decide

/-- N = 0, N = BUF_SIZE and N = BUF_SIZE + 1, and the example of R111. -/
theorem witness_CrcWritesChecksum :
    (accepted 1).xferCount = 0 ∧
    ({ accepted 1 with xferLen := 65536 } : State).xferCount ≤ (accepted 1).cfg.bufSize ∧
    (accepted 1).cfg.bufSize < ({ accepted 1 with xferLen := 65537 } : State).xferCount ∧
    (filled 0 [0x31, 0x32, 0x33, 0x34, 0x35, 0x36, 0x37, 0x38, 0x39]).bytes 0 9 =
      [0x31, 0x32, 0x33, 0x34, 0x35, 0x36, 0x37, 0x38, 0x39] := by decide +kernel

theorem witness_SwapSwapsPrefixInPlace :
    ({ accepted 2 with xferLen := 1 } : State).xferCount ≤ 1 ∧
    ({ accepted 2 with xferLen := 65536 } : State).xferCount ≤ (accepted 2).cfg.bufSize ∧
    (accepted 2).cfg.bufSize < ({ accepted 2 with xferLen := 65537 } : State).xferCount ∧
    ({ accepted 2 with xferLen := 5 } : State).xferCount = 5 ∧
    (filled 0 [1, 2, 3, 4, 5]).bytes 0 5 = [0x01, 0x02, 0x03, 0x04, 0x05] := by decide +kernel

/-- P = MAX_PAYLOAD (odd), P = MAX_PAYLOAD + 1, and R113's example P = 0. -/
theorem witness_EncodeBuildsPacketImage :
    (accepted 3).cfg.WellFormed ∧
    ({ accepted 3 with txPlen := 65527 } : State).payloadLen ≤ (accepted 3).cfg.maxPayload ∧
    ({ accepted 3 with txPlen := 65527 } : State).payloadLen % 2 = 1 ∧
    (accepted 3).cfg.maxPayload < ({ accepted 3 with txPlen := 65528 } : State).payloadLen ∧
    (accepted 3).payloadLen = 0 :=
  ⟨test_default_config, by decide, by decide, by decide, by decide⟩

/-- n out of range, n = 7, and n = 8 with D = 7, D = 9 (rejected and accepted) and D = 8 (ignored,
matching, mismatching strict and warned). -/
theorem witness_DecodeGivesTheVerdict :
    (accepted 4).cfg.WellFormed ∧
    (accepted 4).cfg.bufSize < ({ accepted 4 with rxCount := 65537 } : State).rxLength ∧
    ({ accepted 4 with rxCount := 7 } : State).rxLength < 8 ∧
    8 ≤ (decoding 0x8 [0x07, 0x00, 0, 0, 0, 0, 0, 0]).rxLength ∧
    declaredLen (decoding 0x8 [0x07, 0x00, 0, 0, 0, 0, 0, 0]) < 8 ∧
    (decoding 0x8 [0x09, 0x00, 0, 0, 0, 0, 0, 0]).rxLength <
      declaredLen (decoding 0x8 [0x09, 0x00, 0, 0, 0, 0, 0, 0]) ∧
    (decoding 0x8 []).shortAccept = false ∧ (decoding 0xC []).shortAccept = true ∧
    declaredLen (decoding 0x8 [0x08, 0x00, 0, 0, 0, 0, 0, 0]) = 8 ∧
    (decoding 0x9 []).crcMode = 1 ∧ (decoding 0xA []).crcMode = 2 ∧ (decoding 0x8 []).crcMode = 0 ∧
    crc16 Config.default [0x00, 0x00, 0x00, 0x02] = 0xC181 ∧
    crc16 Config.default [0x00, 0x00, 0x00, 0x03] ≠ 0xC181 := by
  refine ⟨test_default_config, ?_⟩
  decide +kernel

theorem witness_EarlyFileDataMatchesCommand :
    (decoding 0x8 fileDataWire).cfg.WellFormed ∧
    (decoding 0x8 fileDataWire).rxLength ≤ (decoding 0x8 fileDataWire).cfg.bufSize ∧
    (decoding 0x8 fileDataWire).hasFlag .earlyFileData = false ∧
    after (exec .decode (decoding 0x8 fileDataWire)) (fun t => t.hasFlag .earlyFileData) =
      some true := by
  refine ⟨test_default_config, ?_⟩
  decide +kernel

/-- A payload of three bytes (V-E8). -/
def encoding : State :=
  { accepted 3 with txCmd := 0x00001002, txPlen := 3, txbuf := filled 8 [0x41, 0x42, 0x43] }

theorem witness_HeaderOnTheWire : encoding.cfg.WellFormed ∧
    encoding.payloadLen ≤ encoding.cfg.maxPayload ∧ runs (exec .encode encoding) = true := by
  refine ⟨test_default_config, ?_⟩
  decide +kernel

theorem witness_EncodeThenDecodeRoundTrip : encoding.cfg.WellFormed ∧
    encoding.payloadLen ≤ encoding.cfg.maxPayload ∧
    after (exec .encode encoding) (fun t => (t.txWireLen, wireImage t t.txWireLen.toNat)) =
      some (12, [0x0B, 0x00, 0xE1, 0x3E, 0x00, 0x00, 0x02, 0x10, 0x42, 0x41, 0x00, 0x43]) ∧
    (decoding 0x8 [0x0B, 0x00, 0xE1, 0x3E, 0x00, 0x00, 0x02, 0x10, 0x42, 0x41, 0x00, 0x43]).rxCount =
      12 ∧
    (decoding 0x8 [0x0B, 0x00, 0xE1, 0x3E, 0x00, 0x00, 0x02, 0x10, 0x42, 0x41, 0x00, 0x43]).rxbuf.bytes
      0 12 = [0x0B, 0x00, 0xE1, 0x3E, 0x00, 0x00, 0x02, 0x10, 0x42, 0x41, 0x00, 0x43] ∧
    (decoding 0x8 []).flags = 0 := by
  refine ⟨test_default_config, ?_⟩
  decide +kernel

/-- N = BUF_SIZE + 1, N = 0, and N = BUF_SIZE with a whole first chunk of CHUNK_MAX bytes taken. -/
theorem witness_BulkWriteFirstStep :
    (accepted 5).cfg.WellFormed ∧ (accepted 5).engine = .run ⟨5, .start, 0, 0⟩ ∧
    (accepted 5).cfg.bufSize < ({ accepted 5 with xferLen := 65537 } : State).xferCount ∧
    (accepted 5).xferCount = 0 ∧
    0 < ({ accepted 5 with xferLen := 65536 } : State).xferCount ∧
    ({ accepted 5 with xferLen := 65536 } : State).xferCount ≤ (accepted 5).cfg.bufSize ∧
    writeWithin (min (accepted 5).cfg.chunkMax 65536) (.ok 4096) = true := by
  refine ⟨test_default_config, ?_⟩
  decide

/-- A last chunk of one byte: taken, not taken, and failed. -/
theorem witness_BulkWriteChunkStep :
    (inLoop (chunkCtx 5 99 100)).engine = .run (chunkCtx 5 99 100) ∧
    (chunkCtx 5 99 100).stage = .chunk ∧ (chunkCtx 5 99 100).cursor < (chunkCtx 5 99 100).target ∧
    writeWithin (min (inLoop (chunkCtx 5 99 100)).cfg.chunkMax (100 - 99)) (.ok 1) = true ∧
    writeWithin 1 (.ok 0) = true ∧ writeWithin 1 (.err 0) = true := by decide

theorem witness_BulkReadFirstStep :
    (accepted 6).cfg.WellFormed ∧ (accepted 6).engine = .run ⟨6, .start, 0, 0⟩ ∧
    (accepted 6).cfg.bufSize < ({ accepted 6 with xferLen := 65537 } : State).xferCount ∧
    (accepted 6).xferCount = 0 ∧
    0 < ({ accepted 6 with xferLen := 65536 } : State).xferCount ∧
    ({ accepted 6 with xferLen := 65536 } : State).xferCount ≤ (accepted 6).cfg.bufSize ∧
    readWithin (min (accepted 6).cfg.chunkMax 65536) (.ok [0x00]) = true := by
  refine ⟨test_default_config, ?_⟩
  decide

theorem witness_BulkReadChunkStep :
    (inLoop (chunkCtx 6 4096 4097)).engine = .run (chunkCtx 6 4096 4097) ∧
    (chunkCtx 6 4096 4097).stage = .chunk ∧
    (chunkCtx 6 4096 4097).cursor < (chunkCtx 6 4096 4097).target ∧
    readWithin (min (inLoop (chunkCtx 6 4096 4097)).cfg.chunkMax (4097 - 4096)) (.ok [0x00]) = true ∧
    readWithin 1 (.ok []) = true ∧ readWithin 1 (.err 0) = true := by decide

theorem witness_SendFirstStep :
    (accepted 7).cfg.WellFormed ∧ (accepted 7).engine = .run ⟨7, .start, 0, 0⟩ ∧
    (accepted 7).cfg.maxPayload < ({ accepted 7 with txPlen := 65528 } : State).payloadLen ∧
    ({ accepted 7 with txPlen := 65527 } : State).payloadLen ≤ (accepted 7).cfg.maxPayload ∧
    writeWithin (min (accepted 7).cfg.chunkMax (roundEven (8 + 65527))) (.ok 4096) = true := by
  refine ⟨test_default_config, ?_⟩
  decide

theorem witness_SendChunkStep :
    (inLoop (chunkCtx 7 5 8)).engine = .run (chunkCtx 7 5 8) ∧ (chunkCtx 7 5 8).stage = .chunk ∧
    (chunkCtx 7 5 8).cursor < (chunkCtx 7 5 8).target ∧
    writeWithin (min (inLoop (chunkCtx 7 5 8)).cfg.chunkMax (8 - 5)) (.ok 3) = true := by decide

/-- The first read step with each kind of answer, a later one, and RX_READ_LEN = 0. -/
theorem witness_RecvReadStep :
    (accepted 8).cfg.WellFormed ∧ (accepted 8).engine = .run ⟨8, .start, 0, 0⟩ ∧
    0 < (accepted 8).cfg.rxReadLen ∧
    readWithin (min (accepted 8).cfg.chunkMax 65536) (.ok fileDataWire) = true ∧
    readWithin (min (accepted 8).cfg.chunkMax 65536) (.err 1) = true ∧
    readWithin 4096 (.ok (List.replicate 4096 0)) = true ∧
    (inLoop (chunkCtx 8 4096 65536)).engine = .run (chunkCtx 8 4096 65536) ∧
    (chunkCtx 8 4096 65536).target = (accepted 8).cfg.rxReadLen ∧
    8 ≤ fileDataWire.length ∧ (filled 0 fileDataWire).bytes 4 4 = wireCmd Config.default.cmdFileData ∧
    (accepted 8).autoAck = true ∧
    ({ Config.default with rxReadLen := 0 } : Config).WellFormed := by
  refine ⟨test_default_config, rfl, by decide, by decide, by decide, ?_, rfl, by decide, by decide,
    by decide +kernel, by decide, ⟨by decide, by decide⟩⟩
  show decide ((List.replicate 4096 (0 : Byte)).length ≤ 4096) = true
  rw [List.length_replicate]
  decide

/-- The acknowledgement's last byte: taken (the packet then valid), not taken, failed; and its first. -/
theorem witness_RecvAckStep :
    (acking 7 (.ok 1)).engine = .run ⟨8, .ackChunk, 7, 8⟩ ∧
    (acking 7 (.ok 1)).answers = .write (.ok 1) :: [] ∧
    writeWithin (min (acking 7 (.ok 1)).cfg.chunkMax (8 - 7)) (.ok 1) = true ∧
    writeWithin 1 (.ok 0) = true ∧ writeWithin 1 (.err 4) = true ∧ writeWithin 8 (.ok 7) = true ∧
    (validate 20 (acking 7 (.ok 1))).2 = none ∧
    (validate 20 { acking 7 (.ok 1) with rxbuf := filled 0 [0, 0, 0, 0, 0, 0, 0, 0] }).2 =
      some .badLen := by decide +kernel

theorem witness_AcknowledgementPacket : runs (exec .recv (acking 0 (.ok 8))) = true := by
  decide +kernel

theorem witness_EngineStepMakesAtMostOneCall :
    runs (exec .nop (accepted 0)) = true ∧
    after (exec .send { accepted 7 with answers := [.write (.ok 8)] }) (fun t => t.linkLog.length) =
      some 1 := by decide +kernel

theorem witness_OnlyAnswersOutsideContractStop :
    (accepted 5).answers = [] ∧ (inLoop (chunkCtx 5 99 100)).engine = .run (chunkCtx 5 99 100) ∧
    (chunkCtx 5 99 100).cursor < (chunkCtx 5 99 100).target ∧
    exec .bulkWrite { inLoop (chunkCtx 5 99 100) with answers := [.write (.ok 2)] } =
      .fault .linkContract ∧
    exec .recv { inLoop (chunkCtx 8 65535 65536) with answers := [.read (.ok [0, 0])] } =
      .fault .linkContract := ⟨rfl, rfl, by decide, rfl, rfl⟩

/-- A first step and an acknowledgement step whose next listed answer took one byte too many. -/
theorem witness_OnlyAnswersOutsideContractStop_stages :
    exec .bulkWrite { accepted 5 with xferLen := 1, answers := [.write (.ok 2)] } =
      .fault .linkContract ∧
    chunkCall .bulkWrite { accepted 5 with xferLen := 1 } = some (.write 1) ∧
    exec .recv (acking 7 (.ok 2)) = .fault .linkContract ∧
    chunkCall .recv (acking 7 (.ok 2)) = some (.write 1) ∧
    (ChunkCall.write 1).rejects (.write (.ok 2)) = true := ⟨rfl, rfl, rfl, rfl, rfl⟩

theorem witness_EngineStepsRunOut : (acking 0 (.ok 8)).Inv ∧
    runs (engineTurn (acking 0 (.ok 8))) = true :=
  ⟨inv_of_running rfl rfl (by decide) (by decide) rfl (by decide)
    ⟨by decide, rfl, by decide, rfl, by decide, by decide⟩, by decide +kernel⟩

/-- V-W6: 10016 bytes in three chunks. -/
theorem witness_WholeChunkWriteMovesEveryByte :
    ({ accepted 5 with xferLen := 10016 } : State).cfg.WellFormed ∧
    0 < ({ accepted 5 with xferLen := 10016 } : State).xferCount ∧
    ({ accepted 5 with xferLen := 10016 } : State).xferCount ≤ (accepted 5).cfg.bufSize ∧
    3 = (10016 + (accepted 5).cfg.chunkMax - 1) / (accepted 5).cfg.chunkMax ∧
    (accepted 5).engine = .run ⟨5, .start, 0, 0⟩ ∧ decode 5 = .ok .bulkWrite ∧
    (accepted 5).schedule = [] ∧
    wholeChunks 4096 10016 10016 = [.write (.ok 4096), .write (.ok 4096), .write (.ok 1824)] :=
  ⟨test_default_config, by decide, by decide, by decide, rfl, by decide, rfl, rfl⟩

/-- The hits 495 and 496, the values beside them, GUARD_MAX_W and the first value above it. -/
theorem witness_GuardAdjustsChunk :
    (accepted 9).cfg.WellFormed ∧
    roundEven ((accepted 9).cfg.guardOverhead + 495) % (accepted 9).cfg.m512 = 0 ∧
    roundEven ((accepted 9).cfg.guardOverhead + 496) % (accepted 9).cfg.m512 = 0 ∧
    roundEven ((accepted 9).cfg.guardOverhead + 494) % (accepted 9).cfg.m512 ≠ 0 ∧
    roundEven ((accepted 9).cfg.guardOverhead + 497) % (accepted 9).cfg.m512 ≠ 0 ∧
    ({ accepted 9 with guardW := 65518 } : State).guardInput ≤ (accepted 9).cfg.guardMaxW ∧
    (accepted 9).cfg.guardMaxW < ({ accepted 9 with guardW := 65519 } : State).guardInput := by
  refine ⟨test_default_config, ?_⟩
  decide

/-- V-G7, then a SEND of the packet it leaves (P = 8 + 492). -/
theorem witness_GuardedPacketIsNeverA512Multiple :
    ({ accepted 9 with guardW := 496 } : State).cfg.WellFormed ∧
    ({ accepted 9 with guardW := 496 } : State).guardInput ≤ (accepted 9).cfg.guardMaxW ∧
    after (exec .guard { accepted 9 with guardW := 496 }) (fun t => t.guardWAdj) = some 492 ∧
    ({ accepted 7 with txPlen := 500 } : State).payloadLen = (accepted 7).cfg.offsetLen + 492 ∧
    (accepted 7).hasFlag .m512Warn = false ∧
    after (exec .send { accepted 7 with txPlen := 65528 }) (fun t => t.hasFlag .m512Warn) =
      some false := by
  refine ⟨test_default_config, ?_⟩
  decide +kernel

theorem witness_GuardLosesNoByte :
    ({ accepted 9 with guardW := 495 } : State).cfg.WellFormed ∧
    ({ accepted 9 with guardW := 495 } : State).guardInput ≤ (accepted 9).cfg.guardMaxW ∧
    runs (exec .guard { accepted 9 with guardW := 495 }) = true ∧
    0 < ({ accepted 9 with guardW := 495 } : State).guardInput := by
  refine ⟨test_default_config, ?_⟩
  decide +kernel

theorem witness_UploadPacketLength :
    ({ accepted 7 with txPlen := 11 } : State).cfg.WellFormed ∧ (accepted 7).cfg.offsetLen = 8 ∧
    ({ accepted 7 with txPlen := 11 } : State).payloadLen =
      (uploadPayload 0 [0x11, 0x22, 0x33]).length := by
  refine ⟨test_default_config, ?_⟩
  decide

end Sys2Proof.Tests
end

section
/-! SUPPORT. What stays around the block: no engine turn changes the configuration, the turns waiting or
the last value read, and no turn at all changes the configuration (00_scope.md R6). -/

namespace Sys2Proof.Machine

/-! ### The algebra of SurroundingsKept -/

theorem surroundingsKept_refl (s : State) : SurroundingsKept s s := ⟨rfl, rfl, rfl⟩

theorem surroundingsKept_trans {s t u : State} (h : SurroundingsKept s t) (k : SurroundingsKept t u) :
    SurroundingsKept s u := by
  obtain ⟨hcfg, hsched, hread⟩ := h
  obtain ⟨kcfg, ksched, kread⟩ := k
  exact ⟨kcfg.trans hcfg, ksched.trans hsched, kread.trans hread⟩

/-! ### Shared operations -/

theorem surroundingsKept_endWith (e : Option ErrCode) (s : State) : SurroundingsKept s (endWith e s) :=
  ⟨endWith_cfg e s, endWith_schedule e s, endWith_readData e s⟩

theorem surroundingsKept_rangeError (s : State) : SurroundingsKept s (rangeError s) := ⟨rfl, rfl, rfl⟩

theorem surroundingsKept_illegalOp (s : State) : SurroundingsKept s (illegalOp s) := ⟨rfl, rfl, rfl⟩

theorem surroundingsKept_flagIf (s : State) (c : Bool) (f : Flag) : SurroundingsKept s (s.flagIf c f) :=
  ⟨flagIf_cfg s c f, flagIf_schedule s c f, flagIf_readData s c f⟩

theorem surroundingsKept_warn512 (n : Nat) (s : State) : SurroundingsKept s (warn512 n s) :=
  surroundingsKept_flagIf _ _ _

theorem surroundingsKept_markEarly (n : Nat) (s : State) : SurroundingsKept s (markEarly n s) :=
  surroundingsKept_flagIf _ _ _

theorem surroundingsKept_sendPrepare (s : State) : SurroundingsKept s (sendPrepare s) :=
  surroundingsKept_trans ⟨rfl, rfl, rfl⟩ (surroundingsKept_warn512 _ (encodeImage s))

theorem surroundingsKept_validate (n : Nat) (s : State) : SurroundingsKept s (validate n s).1 := by
  obtain ⟨_, _, _, _, _, _, _, h⟩ := validate_frame n s
  rw [h]
  exact ⟨rfl, rfl, rfl⟩

theorem surroundingsKept_linkWrite {ep : Byte} {bs : List Byte} {s s1 : State} {a : WriteAnswer}
    (h : linkWrite ep bs s = some (a, s1)) : SurroundingsKept s s1 := by
  obtain ⟨-, _, _, rfl, -⟩ := linkWrite_some h
  exact ⟨rfl, rfl, rfl⟩

theorem surroundingsKept_linkRead {ep : Byte} {c : Nat} {s s1 : State} {a : ReadAnswer}
    (h : linkRead ep c s = some (a, s1)) : SurroundingsKept s s1 := by
  obtain ⟨-, _, _, rfl, -⟩ := linkRead_some h
  exact ⟨rfl, rfl, rfl⟩

/-! ### Chunk loops -/

/-- What is left of an operation when its loop ends keeps the surroundings, however the loop ended. -/
def EndKeepsSurroundings (fin : Nat → Stop → State → State) : Prop :=
  ∀ n stop s, SurroundingsKept s (fin n stop s)

section Loops
variable {fin : Nat → Stop → State → State} (hfin : EndKeepsSurroundings fin)
include hfin

theorem surroundingsKept_afterWrite (c : Ctx) (a : WriteAnswer) (s : State) :
    SurroundingsKept s (afterWrite fin c a s) := by
  rcases afterWrite_cases fin c a s with ⟨_, -, h⟩ | ⟨-, h⟩ | ⟨_, -, -, -, h⟩ | ⟨_, -, -, -, h⟩ <;> rw [h]
  · exact surroundingsKept_trans ⟨rfl, rfl, rfl⟩ (hfin _ _ _)
  · exact surroundingsKept_trans ⟨rfl, rfl, rfl⟩ (hfin _ _ _)
  · exact ⟨rfl, rfl, rfl⟩
  · exact hfin _ _ _

theorem surroundingsKept_afterRead (c : Ctx) (asked : Nat) (a : ReadAnswer) (s : State) :
    SurroundingsKept s (afterRead fin c asked a s) := by
  rcases afterRead_cases fin c asked a s with
    ⟨_, -, h⟩ | ⟨_, -, -, h⟩ | ⟨_, -, -, -, h⟩ | ⟨_, -, -, -, h⟩ <;> rw [h]
  · exact surroundingsKept_trans ⟨rfl, rfl, rfl⟩ (hfin _ _ _)
  · exact surroundingsKept_trans ⟨rfl, rfl, rfl⟩ (hfin _ _ _)
  · exact ⟨rfl, rfl, rfl⟩
  · exact surroundingsKept_trans ⟨rfl, rfl, rfl⟩ (hfin _ _ _)

theorem surroundingsKept_writeLoopStep {ep : Byte} {src : List Byte} {c : Ctx} {s t : State}
    (h : writeLoopStep ep src fin c s = .next t) : SurroundingsKept s t := by
  rcases writeLoopStep_next h with ⟨-, rfl⟩ | ⟨-, a, s1, hcall, rfl⟩
  · exact hfin _ _ _
  · exact surroundingsKept_trans (surroundingsKept_linkWrite hcall)
      (surroundingsKept_afterWrite hfin c a s1)

theorem surroundingsKept_readLoopStep {ep : Byte} {c : Ctx} {s t : State}
    (h : readLoopStep ep fin c s = .next t) : SurroundingsKept s t := by
  rcases readLoopStep_next h with ⟨-, rfl⟩ | ⟨-, a, s1, hcall, rfl⟩
  · exact hfin _ _ _
  · exact surroundingsKept_trans (surroundingsKept_linkRead hcall)
      (surroundingsKept_afterRead hfin c _ a s1)

end Loops

theorem endKeepsSurroundings_writeDone : EndKeepsSurroundings writeDone := fun _ stop _ =>
  surroundingsKept_trans ⟨rfl, rfl, rfl⟩ (surroundingsKept_endWith stop _)

theorem endKeepsSurroundings_readDone : EndKeepsSurroundings readDone := fun _ stop _ =>
  surroundingsKept_trans ⟨rfl, rfl, rfl⟩ (surroundingsKept_endWith stop _)

theorem surroundingsKept_recvValidate (n : Nat) (f : Bool) (s : State) :
    SurroundingsKept s (recvValidate n f s) := by
  rw [recvValidate_eq]
  exact surroundingsKept_trans (surroundingsKept_validate n s) (surroundingsKept_endWith _ _)

theorem endKeepsSurroundings_recvReadDone : EndKeepsSurroundings recvReadDone := by
  intro got stop s
  have hmark : SurroundingsKept s (markEarly got (s.setReceived got)) :=
    surroundingsKept_trans ⟨rfl, rfl, rfl⟩ (surroundingsKept_markEarly got _)
  rcases recvReadDone_cases got stop s with ⟨_, -, h⟩ | ⟨-, -, -, h⟩ | ⟨-, -, h⟩ <;> rw [h]
  · exact ⟨rfl, rfl, rfl⟩
  · have hwarn := surroundingsKept_trans hmark (surroundingsKept_warn512 8 _)
    exact surroundingsKept_trans hwarn ⟨rfl, rfl, rfl⟩
  · exact surroundingsKept_trans hmark (surroundingsKept_recvValidate got false _)

theorem endKeepsSurroundings_recvAckDone : EndKeepsSurroundings recvAckDone := by
  intro sent stop s
  unfold recvAckDone
  split
  · exact surroundingsKept_trans ⟨rfl, rfl, rfl⟩ (surroundingsKept_recvValidate s.rxLength false _)
  · exact surroundingsKept_trans ⟨rfl, rfl, rfl⟩ (surroundingsKept_recvValidate s.rxLength true _)

/-! ### Operations -/

theorem surroundingsKept_execDecode {s t : State} (h : execDecode s = .next t) :
    SurroundingsKept s t := by
  rcases execDecode_next h with ⟨-, rfl⟩ | ⟨-, rfl⟩
  · exact surroundingsKept_rangeError s
  · have hmark := surroundingsKept_markEarly s.rxLength s
    have hval := surroundingsKept_trans hmark (surroundingsKept_validate s.rxLength _)
    exact surroundingsKept_trans hval (surroundingsKept_endWith _ _)

theorem surroundingsKept_execBulkWrite {s t : State} (h : execBulkWrite s = .next t) :
    SurroundingsKept s t := by
  rcases execBulkWrite_next h with ⟨-, -, rfl⟩ | ⟨-, -, hloop⟩ | ⟨-, hloop⟩
  · exact surroundingsKept_rangeError s
  · exact surroundingsKept_trans (surroundingsKept_warn512 _ s)
      (surroundingsKept_writeLoopStep endKeepsSurroundings_writeDone hloop)
  · exact surroundingsKept_writeLoopStep endKeepsSurroundings_writeDone hloop

theorem surroundingsKept_execBulkRead {s t : State} (h : execBulkRead s = .next t) :
    SurroundingsKept s t := by
  rcases execBulkRead_next h with ⟨-, -, rfl⟩ | ⟨-, -, hloop⟩ | ⟨-, hloop⟩
  · exact surroundingsKept_rangeError s
  · exact surroundingsKept_readLoopStep endKeepsSurroundings_readDone hloop
  · exact surroundingsKept_readLoopStep endKeepsSurroundings_readDone hloop

theorem surroundingsKept_execSend {s t : State} (h : execSend s = .next t) :
    SurroundingsKept s t := by
  rcases execSend_next h with ⟨-, -, rfl⟩ | ⟨-, -, hloop⟩ | ⟨-, hloop⟩
  · exact surroundingsKept_rangeError s
  · exact surroundingsKept_trans (surroundingsKept_sendPrepare s)
      (surroundingsKept_writeLoopStep endKeepsSurroundings_writeDone hloop)
  · exact surroundingsKept_writeLoopStep endKeepsSurroundings_writeDone hloop

theorem surroundingsKept_execRecv {s t : State} (h : execRecv s = .next t) :
    SurroundingsKept s t := by
  rcases execRecv_next h with ⟨-, hloop⟩ | ⟨-, hloop⟩ | ⟨-, hloop⟩
  · exact surroundingsKept_readLoopStep endKeepsSurroundings_recvReadDone hloop
  · exact surroundingsKept_readLoopStep endKeepsSurroundings_recvReadDone hloop
  · exact surroundingsKept_writeLoopStep endKeepsSurroundings_recvAckDone hloop

theorem surroundingsKept_execGuard {s t : State} (h : execGuard s = .next t) :
    SurroundingsKept s t := by
  rcases execGuard_next h with ⟨-, rfl⟩ | ⟨-, rfl⟩
  · exact surroundingsKept_rangeError s
  · have hset : SurroundingsKept s (s.setGuard (guardChunk s.cfg s.guardInput)) :=
      surroundingsKept_trans ⟨rfl, rfl, rfl⟩ (surroundingsKept_flagIf _ _ _)
    exact surroundingsKept_trans hset ⟨rfl, rfl, rfl⟩

theorem surroundingsKept_exec {i : Instr} {s t : State} (h : exec i s = .next t) :
    SurroundingsKept s t := by
  cases i with
  | nop => obtain rfl := execNop_next h; exact ⟨rfl, rfl, rfl⟩
  | crc => rcases execCrc_next h with ⟨-, rfl⟩ | ⟨-, rfl⟩ <;> exact ⟨rfl, rfl, rfl⟩
  | swap => rcases execSwap_next h with ⟨-, rfl⟩ | ⟨-, rfl⟩ <;> exact ⟨rfl, rfl, rfl⟩
  | encode => rcases execEncode_next h with ⟨-, rfl⟩ | ⟨-, rfl⟩ <;> exact ⟨rfl, rfl, rfl⟩
  | decode => exact surroundingsKept_execDecode h
  | bulkWrite => exact surroundingsKept_execBulkWrite h
  | bulkRead => exact surroundingsKept_execBulkRead h
  | send => exact surroundingsKept_execSend h
  | recv => exact surroundingsKept_execRecv h
  | guard => exact surroundingsKept_execGuard h

/-! ### Turns -/

theorem surroundingsKept_engineTurn {s t : State} (h : engineTurn s = .next t) :
    SurroundingsKept s t := by
  rcases engineTurn_next h with ⟨-, rfl⟩ | ⟨_, i, -, -, hexec⟩ | ⟨_, _, -, -, rfl⟩
  · exact surroundingsKept_refl t
  · exact surroundingsKept_exec hexec
  · exact surroundingsKept_illegalOp s

@[simp] theorem setBuffer_cfg (s : State) (b : Buf) (m : Memory) : (s.setBuffer b m).cfg = s.cfg := by
  cases b <;> rfl

@[simp] theorem regWrite_cfg (r : Reg) (v : Word) (s : State) : (regWrite r v s).cfg = s.cfg := by
  cases r <;> rfl

@[simp] theorem hostRead_cfg (a : Addr) (n : Width) (s : State) : (hostRead a n s).cfg = s.cfg := by
  obtain ⟨_, _, _, h⟩ := hostRead_frame a n s
  rw [h]

@[simp] theorem hostWrite_cfg (a : Addr) (n : Width) (v : Word) (s : State) :
    (hostWrite a n v s).cfg = s.cfg := by
  rcases hostWrite_cases a n v s with ⟨_, h⟩ | ⟨r, -, -, -, h⟩ | ⟨b, o, -, -, -, h⟩ <;> rw [h]
  · exact regWrite_cfg r v s
  · exact setBuffer_cfg s b _

@[simp] theorem hostStep_cfg (x : HostAccess) (s : State) : (hostStep x s).cfg = s.cfg := by
  cases x with
  | read a n => exact hostRead_cfg a n s
  | write a n v => exact hostWrite_cfg a n v s

@[simp] theorem blockReset_cfg (s : State) : (blockReset s).cfg = s.cfg := rfl

@[simp] theorem resetInCall_cfg (s : State) : (resetInCall s).cfg = s.cfg := by
  unfold resetInCall
  split <;> rfl

/-- Settles O19: an engine turn keeps the surroundings, the configuration among them; a host access
writes no configuration; and both resets start from the configuration they find (00_scope.md R6). -/
theorem stepKeepsConfiguration : Obligations.StepKeepsConfiguration := by
  intro s t h
  rcases step_next h with ⟨-, hturn⟩ | ⟨rest, -, hturn⟩ | ⟨a, rest, -, rfl⟩ | ⟨rest, -, rfl⟩ |
    ⟨rest, -, rfl⟩
  · exact (surroundingsKept_engineTurn hturn).1
  · exact (surroundingsKept_engineTurn hturn).1
  · exact hostStep_cfg a _
  · exact blockReset_cfg _
  · exact resetInCall_cfg _

end Sys2Proof.Machine
end

section
/-! SUPPORT. The invariant of the block: the part of it that does not speak of the running operation, what
a link loop needs and keeps of it, and its preservation by every turn. -/

namespace Sys2Proof.Machine

/-! ### The part that does not speak of the running operation -/

/-- A buffer in canonical form whose listed bytes lie below `size` (10_state.md R45). -/
def Memory.Fits (size : Nat) (m : Memory) : Prop := m.wf = true ∧ m.within size = true

theorem write_fits {size o : Nat} {m : Memory} {bs : List Byte} (h : m.Fits size)
    (hb : o + bs.length ≤ size) : (m.write o bs).Fits size :=
  ⟨write_wf o bs h.1, write_within h.2 hb⟩

theorem cleared_fits {size : Nat} {bs : List Byte} (h : bs.length ≤ size) :
    (Memory.cleared bs).Fits size := ⟨cleared_wf bs, cleared_within h⟩

/-- `State.Sound` of the parts it reads. -/
structure SoundParts (cfg : Config) (config : BitVec 9) (err : Byte) (tx rx pkt : Memory) : Prop where
  cfg_ok : cfg.WellFormed
  mode_legal : (config.extractLsb' 0 2).toNat ≠ 3
  err_legal : err.toNat ≤ 9
  txbuf_fits : tx.Fits cfg.bufSize
  rxbuf_fits : rx.Fits cfg.bufSize
  rxpkt_fits : pkt.Fits cfg.bufSize

/-- The invariant without its clauses on the phase and the running operation. It is a statement of six
parts of the state, so a state with the same six parts has it by definition. -/
def State.Sound (s : State) : Prop := SoundParts s.cfg s.config s.status.err s.txbuf s.rxbuf s.rxpkt

theorem sound_of_inv {s : State} (h : s.Inv) : s.Sound where
  cfg_ok := h.cfg_ok
  mode_legal := h.crc_mode_legal
  err_legal := h.err_legal
  txbuf_fits := ⟨h.buffers_wf .txbuf, h.buffers_within .txbuf⟩
  rxbuf_fits := ⟨h.buffers_wf .rxbuf, h.buffers_within .rxbuf⟩
  rxpkt_fits := ⟨h.buffers_wf .rxpkt, h.buffers_within .rxpkt⟩

theorem buffer_fits {s : State} (h : s.Sound) (b : Buf) : (s.buffer b).Fits s.cfg.bufSize := by
  cases b with
  | txbuf => exact h.txbuf_fits
  | rxbuf => exact h.rxbuf_fits
  | rxpkt => exact h.rxpkt_fits

/-- While the engine is idle, the invariant is soundness and BUSY 0. -/
theorem inv_of_idle {s : State} (h : s.Sound) (hidle : s.engine = .idle) (hbusy : s.status.busy = false) :
    s.Inv := by
  have hrun : s.running = false := (not_running_iff s).mpr hidle
  exact {
    cfg_ok := h.cfg_ok
    buffers_wf := fun b => (buffer_fits h b).1
    buffers_within := fun b => (buffer_fits h b).2
    busy_iff_run := hbusy.trans hrun.symm
    run_clean := fun hr => by simp [hrun] at hr
    err_legal := h.err_legal
    crc_mode_legal := h.mode_legal
    last_op := fun c hc => by simp [hidle] at hc
    ctx_valid := fun c hc => by simp [hidle] at hc }

theorem errCode_le (e : ErrCode) : e.code.toNat ≤ 9 := by
  cases e <;> decide

/-- Every end of an operation gives the invariant. -/
theorem inv_endWith {s : State} (h : s.Sound) (e : Option ErrCode) : (endWith e s).Inv := by
  cases e with
  | none => exact inv_of_idle h rfl rfl
  | some e => exact inv_of_idle { h with err_legal := errCode_le e } rfl rfl

theorem sound_flagIf {s : State} (h : s.Sound) (c : Bool) (f : Flag) : (s.flagIf c f).Sound := by
  cases c <;> exact h

theorem sound_encodeImage {s : State} (h : s.Sound) (hp : s.payloadLen ≤ s.cfg.maxPayload) :
    (encodeImage s).Sound :=
  { h with txbuf_fits := ⟨encodeImage_wf h.txbuf_fits.1, encodeImage_within h.cfg_ok hp h.txbuf_fits.2⟩ }

theorem sound_validate {s : State} {n : Nat} (h : s.Sound) (hn : n ≤ s.cfg.bufSize) :
    (validate n s).1.Sound := by
  have hpkt : (validate n s).1.rxpkt.Fits s.cfg.bufSize := by
    rw [validate_rxpkt]
    split
    · exact h.rxpkt_fits
    · refine cleared_fits ?_
      rw [pairSwap_length, bytes_length]
      exact (swapWindow_le s n).trans hn
  obtain ⟨_, _, _, _, _, _, _, heq⟩ := validate_frame n s
  rw [heq] at hpkt ⊢
  exact { h with rxpkt_fits := hpkt }

/-! ### Between two link calls of an operation -/

/-- A sound state whose engine runs the operation word w, with nothing finished and nothing raised. -/
structure Live (w : Word) (s : State) : Prop where
  sound : s.Sound
  status_eq : s.status = { busy := true, done := false, lastOp := opcOf w, err := 0 }
  word_eq : s.ctx.word = w

theorem live_of_inv {s : State} {c : Ctx} (h : s.Inv) (hrun : s.engine = .run c) : Live c.word s := by
  have hr : s.running = true := running_of_run hrun
  have hbusy := h.busy_iff_run
  have hclean := h.run_clean hr
  have hlast := h.last_op c hrun
  refine ⟨sound_of_inv h, ?_, by rw [ctx_of_run hrun]⟩
  cases hst : s.status
  simp_all

theorem live_flagIf {w : Word} {s : State} (h : Live w s) (c : Bool) (f : Flag) :
    Live w (s.flagIf c f) := by
  cases c <;> exact ⟨h.sound, h.status_eq, h.word_eq⟩

/-- Going on with a valid context of the running word gives the invariant. -/
theorem inv_continueWith {s : State} {c : Ctx} (h : Live c.word s) (hc : CtxValid s c) :
    (s.continueWith c).Inv where
  cfg_ok := h.sound.cfg_ok
  buffers_wf b := by simpa using (buffer_fits h.sound b).1
  buffers_within b := by simpa using (buffer_fits h.sound b).2
  busy_iff_run := by simp [h.status_eq]
  run_clean _ := by simp [h.status_eq]
  err_legal := h.sound.err_legal
  crc_mode_legal := h.sound.mode_legal
  last_op c' hc' := by
    obtain rfl : c = c' := by simpa using hc'
    simp [h.status_eq]
  ctx_valid c' hc' := by
    obtain rfl : c = c' := by simpa using hc'
    exact hc

/-- The clause of `CtxValid` on the total of an operation's first loop. -/
def LoopTotal (s : State) (w : Word) (n : Nat) : Prop :=
  (decode w = .ok .bulkWrite ∧ n = s.xferCount ∧ s.xferCount ≤ s.cfg.bufSize) ∨
  (decode w = .ok .bulkRead ∧ n = s.xferCount ∧ s.xferCount ≤ s.cfg.bufSize) ∨
  (decode w = .ok .send ∧ n = s.transmitLen ∧ s.payloadLen ≤ s.cfg.maxPayload) ∨
  (decode w = .ok .recv ∧ n = s.cfg.rxReadLen)

theorem ctxValid_chunk_iff {s : State} {c : Ctx} (hc : c.stage = .chunk) :
    CtxValid s c ↔ c.cursor < c.target ∧ LoopTotal s c.word c.target := by
  simp only [CtxValid, hc, LoopTotal]

theorem loopTotal_flagIf {s : State} {w : Word} {n : Nat} (h : LoopTotal s w n) (b : Bool) (f : Flag) :
    LoopTotal (s.flagIf b f) w n := by
  cases b <;> exact h

theorem ctxValid_cursor {s : State} {c : Ctx} {k : Nat} (hc : c.stage = .chunk)
    (htotal : LoopTotal s c.word c.target) (hk : k < c.target) : CtxValid s { c with cursor := k } :=
  (ctxValid_chunk_iff (c := { c with cursor := k }) hc).mpr ⟨hk, htotal⟩

theorem rxReadLen_le {p : Config} (h : p.WellFormed) : p.rxReadLen ≤ p.bufSize := by
  obtain ⟨⟨-, -, -, hread, -⟩, -⟩ := h
  exact hread

theorem bufSize_le {p : Config} (h : p.WellFormed) : p.bufSize ≤ 65536 := by
  obtain ⟨⟨-, -, hsize, -⟩, -⟩ := h
  exact hsize

/-- A loop of a first total stays inside the buffers. -/
theorem loopTotal_le {s : State} {w : Word} {n : Nat} (hcfg : s.cfg.WellFormed) (h : LoopTotal s w n) :
    n ≤ s.cfg.bufSize := by
  rcases h with ⟨-, rfl, h⟩ | ⟨-, rfl, h⟩ | ⟨-, rfl, h⟩ | ⟨-, rfl⟩
  · exact h
  · exact h
  · exact transmitLen_le hcfg h
  · exact rxReadLen_le hcfg

/-- A write loop keeps the invariant where going on is valid and the rest of the operation keeps it. The
state `u` that the rest starts from differs from `s` only in what a call and a flag change. -/
theorem inv_writeLoopStep {ep : Byte} {src : List Byte} {fin : Nat → Stop → State → State} {c : Ctx}
    {s t : State} (hlive : Live c.word s) (hgo : ∀ k < c.target, CtxValid s { c with cursor := k })
    (hfin : ∀ n stop u, Live c.word u → u.cfg = s.cfg → u.rxCount = s.rxCount → (fin n stop u).Inv)
    (h : writeLoopStep ep src fin c s = .next t) : t.Inv := by
  rcases writeLoopStep_next h with ⟨-, rfl⟩ | ⟨-, a, s1, hcall, rfl⟩
  · exact hfin _ _ _ hlive rfl rfl
  · obtain ⟨-, rest, d, rfl, -⟩ := linkWrite_some hcall
    obtain ⟨hsound, hstatus, hword⟩ := hlive
    rcases afterWrite_cases fin c a _ with ⟨e, -, heq⟩ | ⟨-, heq⟩ | ⟨k, -, -, hk, heq⟩ | ⟨k, -, -, -, heq⟩ <;>
      rw [heq]
    · exact hfin _ _ _ ⟨hsound, hstatus, hword⟩ rfl rfl
    · exact hfin _ _ _ ⟨hsound, hstatus, hword⟩ rfl rfl
    · exact inv_continueWith ⟨hsound, hstatus, hword⟩ (hgo _ hk)
    · exact hfin _ _ _ ⟨hsound, hstatus, hword⟩ rfl rfl

/-- A read loop likewise; it stores every chunk it receives inside RXBUF. -/
theorem inv_readLoopStep {ep : Byte} {fin : Nat → Stop → State → State} {c : Ctx} {s t : State}
    (hlive : Live c.word s) (hstage : c.stage = .chunk) (htotal : LoopTotal s c.word c.target)
    (hcursor : c.cursor ≤ c.target)
    (hfin : ∀ n stop u, n ≤ c.target → Live c.word u → u.cfg = s.cfg → (fin n stop u).Inv)
    (h : readLoopStep ep fin c s = .next t) : t.Inv := by
  have hsize : c.target ≤ s.cfg.bufSize := loopTotal_le hlive.sound.cfg_ok htotal
  rcases readLoopStep_next h with ⟨-, rfl⟩ | ⟨-, a, s1, hcall, rfl⟩
  · exact hfin _ _ _ hcursor hlive rfl
  · obtain ⟨hwithin, rest, d, rfl, -⟩ := linkRead_some hcall
    obtain ⟨hsound, hstatus, hword⟩ := hlive
    have hgot : ∀ bs, a = .ok bs → c.cursor + bs.length ≤ c.target := by
      rintro bs rfl
      have hle : bs.length ≤ min s.cfg.chunkMax (c.target - c.cursor) := by
        simpa [readWithin, chunkSize] using hwithin
      omega
    have hstored : ∀ bs, a = .ok bs → (s.rxbuf.write c.cursor bs).Fits s.cfg.bufSize := fun bs hbs =>
      write_fits hsound.rxbuf_fits ((hgot bs hbs).trans hsize)
    rcases afterRead_cases fin c (chunkSize s c) a _ with
      ⟨e, -, heq⟩ | ⟨bs, hbs, -, heq⟩ | ⟨bs, hbs, -, hlt, heq⟩ | ⟨bs, hbs, -, -, heq⟩ <;> rw [heq]
    · exact hfin _ _ _ hcursor ⟨hsound, hstatus, hword⟩ rfl
    · exact hfin _ _ _ (hgot bs hbs)
        ⟨{ hsound with rxbuf_fits := hstored bs hbs }, hstatus, hword⟩ rfl
    · exact inv_continueWith ⟨{ hsound with rxbuf_fits := hstored bs hbs }, hstatus, hword⟩
        (ctxValid_cursor hstage htotal hlt)
    · exact hfin _ _ _ (hgot bs hbs)
        ⟨{ hsound with rxbuf_fits := hstored bs hbs }, hstatus, hword⟩ rfl

/-! ### The ends of the operations -/

theorem inv_rangeError {s : State} (h : s.Sound) : (rangeError s).Inv :=
  inv_endWith (s := s.flag .rangeErr) h (some .range)

theorem inv_recvValidate {s : State} {n : Nat} (h : s.Sound) (hn : n ≤ s.cfg.bufSize) (f : Bool) :
    (recvValidate n f s).Inv := by
  rw [recvValidate_eq]
  exact inv_endWith (sound_validate h hn) _

theorem inv_recvAckDone {s : State} (h : s.Sound) (hn : s.rxLength ≤ s.cfg.bufSize) (sent : Nat)
    (stop : Stop) : (recvAckDone sent stop s).Inv := by
  unfold recvAckDone
  split
  · exact inv_recvValidate (s := s.flag .ackSent) h hn false
  · exact inv_recvValidate (s := s.flag .ackFail) h hn true

/-- The count of a received packet fits RX_COUNT. -/
theorem setReceived_rxLength {s : State} {got : Nat} (hcfg : s.cfg.WellFormed) (h : got ≤ s.cfg.bufSize) :
    (s.setReceived got).rxLength = got := by
  have hsize := bufSize_le hcfg
  simp only [State.rxLength, setReceived_rxCount, BitVec.toNat_ofNat]
  omega

/-- RECV's read loop ends in the invariant, the start of its acknowledgement included: the context it
then holds is the one `CtxValid` asks for. -/
theorem inv_recvReadDone {w : Word} {s : State} {got : Nat} (h : Live w s) (hw : decode w = .ok .recv)
    (hgot : got ≤ s.cfg.rxReadLen) (stop : Stop) : (recvReadDone got stop s).Inv := by
  have hcfg := h.sound.cfg_ok
  have hbuf : got ≤ s.cfg.bufSize := hgot.trans (rxReadLen_le hcfg)
  have hrec : Live w (s.setReceived got) := ⟨h.sound, h.status_eq, h.word_eq⟩
  have hmark : Live w (markEarly got (s.setReceived got)) := live_flagIf hrec _ _
  rcases recvReadDone_cases got stop s with ⟨e, -, heq⟩ | ⟨-, hearly, -, heq⟩ | ⟨-, -, heq⟩ <;> rw [heq]
  · exact inv_endWith hrec.sound (some e)
  · have hlen := setReceived_rxLength hcfg hbuf
    refine inv_continueWith (h.word_eq ▸ live_flagIf hmark _ _) ?_
    refine ⟨by simp [Ctx.loop], rfl, h.word_eq ▸ hw, by simp [warn512, markEarly], ?_, ?_⟩
    · simpa [warn512, markEarly, hlen] using hgot
    · simpa [warn512, markEarly, hlen, isEarlyFileData] using hearly
  · refine inv_recvValidate hmark.sound ?_ false
    simpa [markEarly] using hbuf

/-! ### The operations -/

theorem live_sendPrepare {w : Word} {s : State} (h : Live w s) (hp : s.payloadLen ≤ s.cfg.maxPayload) :
    Live w (sendPrepare s) :=
  live_flagIf (s := encodeImage s) ⟨sound_encodeImage h.sound hp, h.status_eq, h.word_eq⟩ _ _

theorem inv_execSwap {s t : State} (hs : s.Sound) (h : execSwap s = .next t) : t.Inv := by
  rcases execSwap_next h with ⟨-, rfl⟩ | ⟨hN, rfl⟩
  · exact inv_rangeError hs
  · have hfits : (s.txbuf.write 0 (pairSwap (s.txbuf.bytes 0 s.xferCount))).Fits s.cfg.bufSize :=
      write_fits hs.txbuf_fits (by rw [pairSwap_length, bytes_length, Nat.zero_add]; exact hN)
    exact inv_endWith (by exact { hs with txbuf_fits := hfits }) none


theorem inv_execDecode {s t : State} (hs : s.Sound) (h : execDecode s = .next t) : t.Inv := by
  rcases execDecode_next h with ⟨-, rfl⟩ | ⟨hn, rfl⟩
  · exact inv_rangeError hs
  · exact inv_endWith (sound_validate (sound_flagIf hs _ _) (by simpa [markEarly] using hn)) _

theorem inv_execGuard {s t : State} (hs : s.Sound) (h : execGuard s = .next t) : t.Inv := by
  rcases execGuard_next h with ⟨-, rfl⟩ | ⟨-, rfl⟩
  · exact inv_rangeError hs
  · exact inv_endWith (sound_flagIf (by exact hs) _ _) none

/-- BULK_WRITE's and SEND's write loop keeps the invariant. -/
theorem inv_writeLoop {ep : Byte} {src : List Byte} {c : Ctx} {s t : State} (hlive : Live c.word s)
    (hstage : c.stage = .chunk) (htotal : LoopTotal s c.word c.target)
    (h : writeLoopStep ep src writeDone c s = .next t) : t.Inv :=
  inv_writeLoopStep hlive (fun _ hk => ctxValid_cursor hstage htotal hk)
    (fun _ stop _ hu _ _ => inv_endWith (by exact hu.sound) stop) h

/-- BULK_READ's read loop keeps it. -/
theorem inv_readLoop {ep : Byte} {c : Ctx} {s t : State} (hlive : Live c.word s)
    (hstage : c.stage = .chunk) (htotal : LoopTotal s c.word c.target) (hcursor : c.cursor ≤ c.target)
    (h : readLoopStep ep readDone c s = .next t) : t.Inv :=
  inv_readLoopStep hlive hstage htotal hcursor
    (fun _ stop _ _ hu _ => inv_endWith (by exact hu.sound) stop) h

/-- RECV's read loop keeps it. -/
theorem inv_recvLoop {ep : Byte} {c : Ctx} {s t : State} (hlive : Live c.word s)
    (hstage : c.stage = .chunk) (hw : decode c.word = .ok .recv) (htarget : c.target = s.cfg.rxReadLen)
    (hcursor : c.cursor ≤ c.target) (h : readLoopStep ep recvReadDone c s = .next t) : t.Inv :=
  inv_readLoopStep hlive hstage (.inr (.inr (.inr ⟨hw, htarget⟩))) hcursor
    (fun n stop u hn hu hcfg => inv_recvReadDone hu hw (by rw [hcfg, ← htarget]; exact hn) stop) h

section Transport
variable {s t : State} {c : Ctx} (hs : s.Inv) (hrun : s.engine = .run c)
include hs hrun

/-- Past its first step, an operation other than RECV is in its first loop. -/
theorem chunk_of_not_start (hne : c.stage ≠ .start) (hw : decode c.word ≠ .ok .recv) :
    c.stage = .chunk ∧ c.cursor < c.target ∧ LoopTotal s c.word c.target := by
  have hv := hs.ctx_valid c hrun
  cases hst : c.stage with
  | start => exact absurd hst hne
  | chunk => exact ⟨rfl, (ctxValid_chunk_iff hst).mp hv⟩
  | ackChunk =>
    simp only [CtxValid, hst] at hv
    obtain ⟨-, -, hrecv, -⟩ := hv
    exact absurd hrecv hw

theorem inv_execBulkWrite (hw : decode c.word = .ok .bulkWrite) (h : execBulkWrite s = .next t) :
    t.Inv := by
  have hlive := live_of_inv hs hrun
  rcases execBulkWrite_next h with ⟨-, -, rfl⟩ | ⟨-, hN, hloop⟩ | ⟨hne, hloop⟩
  · exact inv_rangeError hlive.sound
  · rw [ctx_of_run hrun] at hloop
    have htotal : LoopTotal s c.word s.xferCount := .inl ⟨hw, rfl, hN⟩
    exact inv_writeLoop (c := c.loop .chunk s.xferCount) (live_flagIf hlive _ _) rfl
      (loopTotal_flagIf htotal _ _) hloop
  · rw [ctx_of_run hrun] at hne hloop
    obtain ⟨hstage, -, htotal⟩ := chunk_of_not_start hs hrun hne (by simp [hw])
    exact inv_writeLoop hlive hstage htotal hloop

theorem inv_execBulkRead (hw : decode c.word = .ok .bulkRead) (h : execBulkRead s = .next t) :
    t.Inv := by
  have hlive := live_of_inv hs hrun
  rcases execBulkRead_next h with ⟨-, -, rfl⟩ | ⟨-, hN, hloop⟩ | ⟨hne, hloop⟩
  · exact inv_rangeError hlive.sound
  · rw [ctx_of_run hrun] at hloop
    exact inv_readLoop (c := c.loop .chunk s.xferCount) hlive rfl (.inr (.inl ⟨hw, rfl, hN⟩))
      (Nat.zero_le _) hloop
  · rw [ctx_of_run hrun] at hne hloop
    obtain ⟨hstage, hlt, htotal⟩ := chunk_of_not_start hs hrun hne (by simp [hw])
    exact inv_readLoop hlive hstage htotal hlt.le hloop

theorem inv_execSend (hw : decode c.word = .ok .send) (h : execSend s = .next t) : t.Inv := by
  have hlive := live_of_inv hs hrun
  rcases execSend_next h with ⟨-, -, rfl⟩ | ⟨-, hP, hloop⟩ | ⟨hne, hloop⟩
  · exact inv_rangeError hlive.sound
  · rw [ctx_of_run hrun] at hloop
    have htotal : LoopTotal (encodeImage s) c.word s.transmitLen := .inr (.inr (.inl ⟨hw, rfl, hP⟩))
    exact inv_writeLoop (c := c.loop .chunk s.transmitLen) (live_sendPrepare hlive hP) rfl
      (loopTotal_flagIf htotal _ _) hloop
  · rw [ctx_of_run hrun] at hne hloop
    obtain ⟨hstage, -, htotal⟩ := chunk_of_not_start hs hrun hne (by simp [hw])
    exact inv_writeLoop hlive hstage htotal hloop

theorem inv_execRecv (hw : decode c.word = .ok .recv) (h : execRecv s = .next t) : t.Inv := by
  have hlive := live_of_inv hs hrun
  have hv := hs.ctx_valid c hrun
  rcases execRecv_next h with ⟨-, hloop⟩ | ⟨hstage, hloop⟩ | ⟨hstage, hloop⟩ <;>
    rw [ctx_of_run hrun] at hloop
  · exact inv_recvLoop (c := c.loop .chunk s.cfg.rxReadLen) hlive rfl hw rfl (Nat.zero_le _) hloop
  · rw [ctx_of_run hrun] at hstage
    obtain ⟨hlt, htotal⟩ := (ctxValid_chunk_iff hstage).mp hv
    have htarget : c.target = s.cfg.rxReadLen := by simpa [LoopTotal, hw] using htotal
    exact inv_recvLoop hlive hstage hw htarget hlt.le hloop
  · rw [ctx_of_run hrun] at hstage
    have hack := hv
    simp only [CtxValid, hstage] at hack
    obtain ⟨-, htarget, -, hcount, hlen, hearly⟩ := hack
    refine inv_writeLoopStep hlive (fun k hk => ?_) (fun n stop u hu hcfg hrx => ?_) hloop
    · simp only [CtxValid, hstage]
      exact ⟨hk, htarget, hw, hcount, hlen, hearly⟩
    · refine inv_recvAckDone hu.sound ?_ n stop
      rw [hcfg, State.rxLength, hrx]
      exact hlen.trans (rxReadLen_le hs.cfg_ok)

/-- An engine step of the running operation keeps the invariant. -/
theorem inv_exec {i : Instr} (hw : decode c.word = .ok i) (h : exec i s = .next t) : t.Inv := by
  have hsound := sound_of_inv hs
  cases i with
  | nop => obtain rfl := execNop_next h; exact inv_endWith hsound none
  | crc =>
    rcases execCrc_next h with ⟨-, rfl⟩ | ⟨-, rfl⟩
    · exact inv_rangeError hsound
    · exact inv_endWith (by exact hsound) none
  | swap => exact inv_execSwap hsound h
  | encode =>
    rcases execEncode_next h with ⟨-, rfl⟩ | ⟨hP, rfl⟩
    · exact inv_rangeError hsound
    · exact inv_endWith (sound_encodeImage hsound hP) none
  | decode => exact inv_execDecode hsound h
  | bulkWrite => exact inv_execBulkWrite hs hrun hw h
  | bulkRead => exact inv_execBulkRead hs hrun hw h
  | send => exact inv_execSend hs hrun hw h
  | recv => exact inv_execRecv hs hrun hw h
  | guard => exact inv_execGuard hsound h

end Transport

/-! ### Turns -/

theorem inv_engineTurn {s t : State} (hs : s.Inv) (h : engineTurn s = .next t) : t.Inv := by
  rcases engineTurn_next h with ⟨-, rfl⟩ | ⟨c, i, hrun, hw, hexec⟩ | ⟨c, e, -, -, rfl⟩
  · exact hs
  · exact inv_exec hs hrun hw hexec
  · have hsound := sound_of_inv hs
    exact inv_endWith (s := s.flag .illegalOp) hsound (some .illegal)

/-- The invariant does not speak of STICKY, the schedule, the last value read or the draws. -/
theorem inv_outside {s : State} (hs : s.Inv) (st : BitVec 19) (sched : List Turn) (rd : Option Word)
    (d : Nat) : State.Inv { s with sticky := st, schedule := sched, readData := rd, draws := d } := by
  obtain ⟨hcfg, hwf, hwithin, hbusy, hclean, herr, hmode, hlast, hctx⟩ := hs
  exact ⟨hcfg, hwf, hwithin, hbusy, hclean, herr, hmode, hlast, hctx⟩

theorem inv_accept {s : State} (hs : s.Sound) (w : Word) : (accept w s).Inv := by
  have hlive : Live w (accept w s) := ⟨{ hs with err_legal := Nat.zero_le 9 }, rfl, rfl⟩
  exact inv_continueWith (c := { word := w, stage := .start, cursor := 0, target := 0 }) hlive ⟨rfl, rfl⟩

theorem extractLsb_mode (v : Word) :
    ((v.extractLsb' 0 9).extractLsb' 0 2).toNat = v.toNat % 4 := by
  simp only [BitVec.extractLsb'_toNat, Nat.shiftRight_zero]
  omega

theorem and_0x1FC_mode (c : BitVec 9) : (c &&& 0x1FC).extractLsb' 0 2 = 0 := by
  ext i hi
  obtain rfl | rfl : i = 0 ∨ i = 1 := by omega
  · simp
  · simp
theorem configStored_mode (v : Word) :
    ((configStored v).extractLsb' 0 2).toNat = if v.toNat % 4 = 3 then 0 else v.toNat % 4 := by
  have hmode := extractLsb_mode v
  have hiff : (v.extractLsb' 0 9).extractLsb' 0 2 = 3 ↔ v.toNat % 4 = 3 := by
    rw [← BitVec.toNat_inj, hmode]
    rfl
  unfold configStored
  by_cases h3 : v.toNat % 4 = 3
  · rw [if_pos (hiff.mpr h3), if_pos h3, and_0x1FC_mode]
    rfl
  · rw [if_neg (hiff.not.mpr h3), if_neg h3, hmode]

theorem configStored_mode_legal (v : Word) : ((configStored v).extractLsb' 0 2).toNat ≠ 3 := by
  rw [configStored_mode]
  split <;> omega

/-- A write to a register that no phase protects changes STICKY alone, if anything. -/
theorem regWrite_of_not_protected {r : Reg} (h : regProtected r = false) (v : Word) (s : State) :
    ∃ st, regWrite r v s = { s with sticky := st } := by
  cases r <;> simp [regProtected] at h <;> exact ⟨_, rfl⟩

/-- A write to a register that is not protected at the time. -/
theorem inv_regWrite {s : State} (hs : s.Inv) (r : Reg) (v : Word)
    (hr : (s.running && regProtected r) = false) : (regWrite r v s).Inv := by
  have hsound := sound_of_inv hs
  cases hp : regProtected r with
  | false =>
    obtain ⟨st, heq⟩ := regWrite_of_not_protected hp v s
    rw [heq]
    exact inv_outside hs st _ _ _
  | true =>
    have hidle : s.running = false := by simpa [hp] using hr
    have hbusy : s.status.busy = false := hs.busy_iff_run.trans hidle
    rw [not_running_iff] at hidle
    cases r
    case op => exact inv_accept hsound v
    case config => exact inv_of_idle { hsound with mode_legal := configStored_mode_legal v } hidle hbusy
    all_goals exact inv_of_idle hsound hidle hbusy

theorem inv_hostWrite {s : State} (hs : s.Inv) (a : Addr) (n : Width) (v : Word) :
    (hostWrite a n v s).Inv := by
  rcases hostWrite_cases a n v s with ⟨st, h⟩ | ⟨r, -, -, hr, h⟩ | ⟨b, o, -, ho, hidle, h⟩ <;> rw [h]
  · exact inv_outside hs st _ _ _
  · exact inv_regWrite hs r v hr
  · have hsound := sound_of_inv hs
    have hbusy : s.status.busy = false := hs.busy_iff_run.trans hidle
    rw [not_running_iff] at hidle
    have hfits : ((s.buffer b).write o [v.extractLsb' 0 8]).Fits s.cfg.bufSize :=
      write_fits (buffer_fits hsound b) ho
    cases b with
    | txbuf => exact inv_of_idle (by exact { hsound with txbuf_fits := hfits }) hidle hbusy
    | rxbuf => exact inv_of_idle (by exact { hsound with rxbuf_fits := hfits }) hidle hbusy
    | rxpkt => exact inv_of_idle (by exact { hsound with rxpkt_fits := hfits }) hidle hbusy

theorem inv_hostStep {s : State} (hs : s.Inv) (x : HostAccess) : (hostStep x s).Inv := by
  cases x with
  | read a n =>
    obtain ⟨st, rd, d, h⟩ := hostRead_frame a n s
    simp only [hostStep, h]
    exact inv_outside hs st _ rd d
  | write a n v => exact inv_hostWrite hs a n v

theorem inv_afterReset {p : Config} (hp : p.WellFormed) (d : Nat) (sched : List Turn)
    (an : List LinkAnswer) (lg : List LinkEvent) (rd : Option Word) :
    (State.afterReset p d sched an lg rd).Inv :=
  have hnew : ∀ k, Memory.Fits p.bufSize { cells := [], fill := .unwritten k } := fun k =>
    ⟨unwritten_wf k, rfl⟩
  have hmode : ((0x008 : BitVec 9).extractLsb' 0 2).toNat ≠ 3 := by decide
  inv_of_idle ⟨hp, hmode, Nat.zero_le 9, hnew d, hnew (d + 1), hnew (d + 2)⟩ rfl rfl

theorem inv_resetInCall {s : State} (hcfg : s.cfg.WellFormed) : (resetInCall s).Inv := by
  unfold resetInCall
  split
  · exact inv_afterReset hcfg _ _ _ _ _
  · exact inv_afterReset hcfg _ _ _ _ _

/-- Settles O18: each of the five turns keeps the invariant. An engine turn is the heart of it: every loop
of an operation goes on with a context of its rule, and every end of one leaves a sound idle block. -/
theorem stepKeepsInvariant : Obligations.StepKeepsInvariant := by
  intro s t hs h
  rcases step_next h with ⟨-, hturn⟩ | ⟨rest, -, hturn⟩ | ⟨a, rest, -, rfl⟩ | ⟨rest, -, rfl⟩ |
    ⟨rest, -, rfl⟩
  · exact inv_engineTurn hs hturn
  · exact inv_engineTurn (inv_outside hs _ rest _ _) hturn
  · exact inv_hostStep (inv_outside hs _ rest _ _) a
  · exact inv_afterReset hs.cfg_ok _ _ _ _ _
  · exact inv_resetInCall hs.cfg_ok

end Sys2Proof.Machine
end

section
/-! SUPPORT. What an engine step is made of, said once: the elementary updates that an operation's rule
allows, and at most one link call among them. The frames of the operations follow from it. -/

namespace Sys2Proof.Machine

/-! ### Elementary updates -/

/-- The operations that call the link (41_bulk_transport.md R145-R148). -/
def linkOps : List Instr := [.bulkWrite, .bulkRead, .send, .recv]

/-- One elementary update that the rule of operation i allows by its lists of flags, registers and
buffers. A link call is none. -/
inductive Update (i : Instr) : State → State → Prop
  | lifecycle (s : State) (st : Status) (e : Engine) : Update i s { s with status := st, engine := e }
  | flag (s : State) {f : Flag} (h : f ∈ flagsWritten i) : Update i s (s.flag f)
  | buffer (s : State) {b : Buf} (h : b ∈ buffersWritten i) (m : Memory) : Update i s (s.setBuffer b m)
  | crcResult (s : State) (h : .crcResult ∈ regsWritten i) (v : BitVec 16) :
      Update i s { s with crcResult := v }
  | guardOut (s : State) (h : .guardOut ∈ regsWritten i) (w : BitVec 16) (r : Byte) :
      Update i s { s with guardWAdj := w, guardRewind := r }
  | txWireLen (s : State) (h : .txWireLen ∈ regsWritten i) (v : BitVec 17) :
      Update i s { s with txWireLen := v }
  | rxLen (s : State) (h : .rxLen ∈ regsWritten i) (v : BitVec 16) : Update i s { s with rxLen := v }
  | rxCmd (s : State) (h : .rxCmd ∈ regsWritten i) (v : Word) : Update i s { s with rxCmd := v }
  | rxCrc (s : State) (h : .rxCrc ∈ regsWritten i) (emb com : BitVec 16) :
      Update i s { s with rxCrcEmbedded := emb, rxCrcComputed := com }
  | rxCount (s : State) (h : .rxCount ∈ regsWritten i) (v : BitVec 17) : Update i s { s with rxCount := v }
  | resultCount (s : State) (h : .resultCount ∈ regsWritten i) (v : BitVec 17) :
      Update i s { s with resultCount := v }
  | linkErr (s : State) (h : .linkErr ∈ regsWritten i) (e : Word) : Update i s { s with linkErr := e }

/-- Any number of elementary updates. -/
abbrev Updates (i : Instr) : State → State → Prop := Relation.ReflTransGen (Update i)

/-- What an engine step of operation i does: updates alone, or updates around one link call. -/
inductive StepOf (i : Instr) (s t : State) : Prop
  | quiet (h : Updates i s t)
  | call (hi : i ∈ linkOps) (u : State) (ev : LinkEvent) (rest : List LinkAnswer) (d : Nat)
      (before : Updates i s u) (hev : CallInContract u ev)
      (after : Updates i { u.logCall ev with answers := rest, draws := d } t)

theorem stepOf_of_updates {i : Instr} {s u t : State} (h : Updates i s u) (k : StepOf i u t) :
    StepOf i s t := by
  cases k with
  | quiet k => exact .quiet (h.trans k)
  | call hi v ev rest d before hev after => exact .call hi v ev rest d (h.trans before) hev after

/-! ### Shared operations -/

theorem updates_endWith (i : Instr) (e : Option ErrCode) (s : State) : Updates i s (endWith e s) := by
  cases e <;> exact .single (.lifecycle s _ _)

theorem updates_flagIf {i : Instr} {f : Flag} (h : f ∈ flagsWritten i) (c : Bool) (s : State) :
    Updates i s (s.flagIf c f) := by
  cases c with
  | false => exact .refl
  | true => exact .single (.flag s h)

theorem updates_rangeError {i : Instr} (h : .rangeErr ∈ flagsWritten i) (s : State) :
    Updates i s (rangeError s) :=
  .trans (.single (.flag s h)) (updates_endWith i (some .range) _)

theorem updates_encodeImage {i : Instr} (hb : .txbuf ∈ buffersWritten i) (hr : .txWireLen ∈ regsWritten i)
    (s : State) : Updates i s (encodeImage s) :=
  .trans (.single (.buffer s hb (encodeImage s).txbuf)) (.single (.txWireLen _ hr _))

section Validation
variable {i : Instr} (hi : i ∈ [Instr.decode, .recv])
include hi

/-- The lists of an operation that validates hold what a validation reports. -/
theorem validation_lists :
    (∀ f ∈ [Flag.earlyFileData, .tooShort, .badLen, .shortPacket, .crcChecked, .crcMismatch, .rxValid],
      f ∈ flagsWritten i) ∧
    (∀ r ∈ [Reg.rxLen, .rxCmd, .rxCrc], r ∈ regsWritten i) ∧ Buf.rxpkt ∈ buffersWritten i := by
  revert i
  decide

theorem updates_markEarly (n : Nat) (s : State) : Updates i s (markEarly n s) :=
  updates_flagIf ((validation_lists hi).1 _ (by decide)) _ s

theorem updates_recoverPacket (n : Nat) (s : State) : Updates i s (recoverPacket n s) := by
  obtain ⟨-, hregs, hbuf⟩ := validation_lists hi
  have hpkt : Updates i s (s.setBuffer .rxpkt (recoverPacket n s).rxpkt) := .single (.buffer s hbuf _)
  have hlen := hpkt.tail (.rxLen _ (hregs _ (by decide)) (recoverPacket n s).rxLen)
  have hcmd := hlen.tail (.rxCmd _ (hregs _ (by decide)) (recoverPacket n s).rxCmd)
  exact hcmd.tail (.rxCrc _ (hregs _ (by decide)) (recoverPacket n s).rxCrcEmbedded 0)

theorem updates_compareCrc (d : Nat) (s : State) : Updates i s (compareCrc d s).1 := by
  obtain ⟨hflags, hregs, -⟩ := validation_lists hi
  have hcom : Updates i s _ :=
    .single (.rxCrc s (hregs _ (by decide)) s.rxCrcEmbedded (crc16 s.cfg (s.rxpkt.bytes 4 (d - 4))))
  have hchecked := hcom.tail (.flag _ (hflags .crcChecked (by decide)))
  have hmismatch := hchecked.tail (.flag _ (hflags .crcMismatch (by decide)))
  rcases compareCrc_cases d s with ⟨-, h⟩ | ⟨-, -, h⟩ | ⟨-, -, h⟩ <;> rw [h]
  · exact hchecked.tail (.flag _ (hflags .rxValid (by decide)))
  · exact hmismatch
  · exact hmismatch.tail (.flag _ (hflags .rxValid (by decide)))

theorem updates_validate (n : Nat) (s : State) : Updates i s (validate n s).1 := by
  have hflags := (validation_lists hi).1
  have hrec := updates_recoverPacket hi n s
  have hshort := hrec.tail (.flag _ (hflags .shortPacket (by decide)))
  rcases validate_cases n s with
    ⟨-, h⟩ | ⟨-, -, h⟩ | ⟨-, -, -, -, h⟩ | ⟨-, -, -, -, h⟩ | ⟨-, -, -, -, h⟩ | ⟨-, -, -, -, h⟩ <;> rw [h]
  · exact .single (.flag s (hflags .tooShort (by decide)))
  · exact hrec.tail (.flag _ (hflags .badLen (by decide)))
  · exact hshort.tail (.flag _ (hflags .rxValid (by decide)))
  · exact hshort
  · exact hrec.tail (.flag _ (hflags .rxValid (by decide)))
  · exact hrec.trans (updates_compareCrc hi _ _)

end Validation

/-! ### Chunk loops -/

/-- What is left of operation i when its loop ends is made of its updates. -/
def EndUpdates (i : Instr) (fin : Nat → Stop → State → State) : Prop :=
  ∀ n stop s, Updates i s (fin n stop s)

/-- A lifecycle update that leaves STATUS: the loop going on. -/
theorem updates_continueWith (i : Instr) (s : State) (c : Ctx) : Updates i s (s.continueWith c) :=
  .single (.lifecycle s s.status (.run c))

section WriteLoop
variable {i : Instr} (hi : i ∈ [Instr.bulkWrite, .send, .recv])
include hi

theorem writeLoop_lists :
    i ∈ linkOps ∧ (∀ f ∈ [Flag.ioError, .zeroXfer, .shortWrite, .m512Warn], f ∈ flagsWritten i) ∧
    Reg.linkErr ∈ regsWritten i := by
  revert i
  decide

theorem updates_warn512 (n : Nat) (s : State) : Updates i s (warn512 n s) :=
  updates_flagIf ((writeLoop_lists hi).2.1 _ (by decide)) _ s

theorem updates_afterWrite {fin : Nat → Stop → State → State} (hfin : EndUpdates i fin) (c : Ctx)
    (a : WriteAnswer) (s : State) : Updates i s (afterWrite fin c a s) := by
  obtain ⟨-, hflags, herr⟩ := writeLoop_lists hi
  rcases afterWrite_cases fin c a s with ⟨e, -, h⟩ | ⟨-, h⟩ | ⟨k, -, -, -, h⟩ | ⟨k, -, -, -, h⟩ <;> rw [h]
  · have hio := (Relation.ReflTransGen.single (Update.linkErr s herr e)).tail
      (.flag _ (hflags .ioError (by decide)))
    exact (hio.tail (.flag _ (hflags .shortWrite (by decide)))).trans (hfin _ _ _)
  · have hzero := Relation.ReflTransGen.single (Update.flag s (hflags .zeroXfer (by decide)))
    exact (hzero.tail (.flag _ (hflags .shortWrite (by decide)))).trans (hfin _ _ _)
  · exact updates_continueWith i s _
  · exact hfin _ _ _

theorem stepOf_writeLoopStep {ep : Byte} {src : List Byte} {fin : Nat → Stop → State → State} {c : Ctx}
    {s t : State} (hfin : EndUpdates i fin) (hep : ep = s.cfg.epOut)
    (h : writeLoopStep ep src fin c s = .next t) : StepOf i s t := by
  rcases writeLoopStep_next h with ⟨-, rfl⟩ | ⟨-, a, s1, hcall, rfl⟩
  · exact .quiet (hfin _ _ _)
  · obtain ⟨hwithin, rest, d, rfl, -⟩ := linkWrite_some hcall
    have hsize : ((src.drop c.cursor).take (chunkSize s c)).length ≤ s.cfg.chunkMax :=
      (List.length_take_le _ _).trans (Nat.min_le_left _ _)
    have hev : CallInContract s (.write ep ((src.drop c.cursor).take (chunkSize s c)) s.timeout (some a)) :=
      ⟨hep, rfl, hsize, hwithin⟩
    exact .call (writeLoop_lists hi).1 s _ rest d .refl hev (updates_afterWrite hi hfin c a _)

end WriteLoop

section ReadLoop
variable {i : Instr} (hi : i ∈ [Instr.bulkRead, .recv])
include hi

theorem readLoop_lists :
    i ∈ linkOps ∧ (∀ f ∈ [Flag.ioError, .shortRead], f ∈ flagsWritten i) ∧
    (∀ r ∈ [Reg.linkErr, .rxCount, .resultCount], r ∈ regsWritten i) ∧ Buf.rxbuf ∈ buffersWritten i := by
  revert i
  decide

theorem updates_setReceived (s : State) (n : Nat) : Updates i s (s.setReceived n) := by
  obtain ⟨-, -, hregs, -⟩ := readLoop_lists hi
  have hcount : Updates i s _ := .single (.rxCount s (hregs _ (by decide)) (BitVec.ofNat 17 n))
  exact hcount.tail (.resultCount _ (hregs _ (by decide)) (BitVec.ofNat 17 n))

theorem updates_afterRead {fin : Nat → Stop → State → State} (hfin : EndUpdates i fin) (c : Ctx)
    (asked : Nat) (a : ReadAnswer) (s : State) : Updates i s (afterRead fin c asked a s) := by
  obtain ⟨-, hflags, hregs, hbuf⟩ := readLoop_lists hi
  have hstore : ∀ m : Memory, Updates i s { s with rxbuf := m } := fun m => .single (.buffer s hbuf m)
  rcases afterRead_cases fin c asked a s with
    ⟨e, -, h⟩ | ⟨bs, -, -, h⟩ | ⟨bs, -, -, -, h⟩ | ⟨bs, -, -, -, h⟩ <;> rw [h]
  · have hio := (Relation.ReflTransGen.single (Update.linkErr s (hregs _ (by decide)) e)).tail
      (.flag _ (hflags .ioError (by decide)))
    exact hio.trans (hfin _ _ _)
  · exact ((hstore _).tail (.flag _ (hflags .shortRead (by decide)))).trans (hfin _ _ _)
  · exact (hstore _).trans (updates_continueWith i _ _)
  · exact (hstore _).trans (hfin _ _ _)

theorem stepOf_readLoopStep {ep : Byte} {fin : Nat → Stop → State → State} {c : Ctx} {s t : State}
    (hfin : EndUpdates i fin) (hep : ep = s.cfg.epIn) (h : readLoopStep ep fin c s = .next t) :
    StepOf i s t := by
  rcases readLoopStep_next h with ⟨-, rfl⟩ | ⟨-, a, s1, hcall, rfl⟩
  · exact .quiet (hfin _ _ _)
  · obtain ⟨hwithin, rest, d, rfl, -⟩ := linkRead_some hcall
    have hev : CallInContract s (.read ep (chunkSize s c) s.timeout (some a)) :=
      ⟨hep, rfl, Nat.min_le_left _ _, hwithin⟩
    exact .call (readLoop_lists hi).1 s _ rest d .refl hev (updates_afterRead hi hfin c _ a _)

end ReadLoop

theorem endUpdates_writeDone {i : Instr} (h : .resultCount ∈ regsWritten i) : EndUpdates i writeDone :=
  fun _ stop s => .trans (.single (.resultCount s h _)) (updates_endWith i stop _)

theorem endUpdates_readDone : EndUpdates .bulkRead readDone := fun n stop s =>
  (updates_setReceived (by decide) s n).trans (updates_endWith _ stop _)

theorem updates_recvValidate (n : Nat) (f : Bool) (s : State) : Updates .recv s (recvValidate n f s) := by
  rw [recvValidate_eq]
  exact (updates_validate (by decide) n s).trans (updates_endWith _ _ _)

theorem endUpdates_recvReadDone : EndUpdates .recv recvReadDone := by
  intro got stop s
  have hrec : Updates .recv s (s.setReceived got) := updates_setReceived (by decide) s got
  have hmark := hrec.trans (updates_markEarly (by decide) got _)
  rcases recvReadDone_cases got stop s with ⟨e, -, h⟩ | ⟨-, -, -, h⟩ | ⟨-, -, h⟩ <;> rw [h]
  · exact hrec.trans (updates_endWith _ (some e) _)
  · exact (hmark.trans (updates_warn512 (by decide) 8 _)).trans (updates_continueWith _ _ _)
  · exact hmark.trans (updates_recvValidate got false _)

theorem endUpdates_recvAckDone : EndUpdates .recv recvAckDone := by
  intro sent stop s
  unfold recvAckDone
  split
  · exact .trans (.single (.flag s (by decide))) (updates_recvValidate _ _ _)
  · exact .trans (.single (.flag s (by decide))) (updates_recvValidate _ _ _)

/-! ### Operations -/

theorem stepOf_execDecode {s t : State} (h : execDecode s = .next t) : StepOf .decode s t := by
  rcases execDecode_next h with ⟨-, rfl⟩ | ⟨-, rfl⟩
  · exact .quiet (updates_rangeError (by decide) s)
  · have hmark : Updates .decode s _ := updates_markEarly (by decide) s.rxLength s
    exact .quiet ((hmark.trans (updates_validate (by decide) _ _)).trans (updates_endWith _ _ _))

theorem stepOf_execGuard {s t : State} (h : execGuard s = .next t) : StepOf .guard s t := by
  rcases execGuard_next h with ⟨-, rfl⟩ | ⟨-, rfl⟩
  · exact .quiet (updates_rangeError (by decide) s)
  · have hout : Updates .guard s _ := .single (.guardOut s (by decide)
      (BitVec.ofNat 16 (guardChunk s.cfg s.guardInput).wAdj)
      (BitVec.ofNat 8 (guardChunk s.cfg s.guardInput).rewind))
    exact .quiet ((hout.trans (updates_flagIf (by decide) _ _)).trans (updates_endWith _ none _))

theorem stepOf_execBulkWrite {s t : State} (h : execBulkWrite s = .next t) : StepOf .bulkWrite s t := by
  rcases execBulkWrite_next h with ⟨-, -, rfl⟩ | ⟨-, -, hloop⟩ | ⟨-, hloop⟩
  · exact .quiet (updates_rangeError (by decide) s)
  · exact stepOf_of_updates (updates_warn512 (by decide) _ s)
      (stepOf_writeLoopStep (by decide) (endUpdates_writeDone (by decide)) (by simp [warn512]) hloop)
  · exact stepOf_writeLoopStep (by decide) (endUpdates_writeDone (by decide)) rfl hloop

theorem stepOf_execBulkRead {s t : State} (h : execBulkRead s = .next t) : StepOf .bulkRead s t := by
  rcases execBulkRead_next h with ⟨-, -, rfl⟩ | ⟨-, -, hloop⟩ | ⟨-, hloop⟩
  · exact .quiet (updates_rangeError (by decide) s)
  · exact stepOf_readLoopStep (by decide) endUpdates_readDone rfl hloop
  · exact stepOf_readLoopStep (by decide) endUpdates_readDone rfl hloop

theorem stepOf_execSend {s t : State} (h : execSend s = .next t) : StepOf .send s t := by
  rcases execSend_next h with ⟨-, -, rfl⟩ | ⟨-, -, hloop⟩ | ⟨-, hloop⟩
  · exact .quiet (updates_rangeError (by decide) s)
  · have hprep : Updates .send s (sendPrepare s) :=
      (updates_encodeImage (by decide) (by decide) s).trans (updates_warn512 (by decide) _ _)
    exact stepOf_of_updates hprep (stepOf_writeLoopStep (by decide) (endUpdates_writeDone (by decide))
      (by rw [(surroundingsKept_sendPrepare s).1]) hloop)
  · exact stepOf_writeLoopStep (by decide) (endUpdates_writeDone (by decide)) rfl hloop

/-- A later step of SEND is one of BULK_WRITE's loop, which allows no buffer. -/
theorem stepOf_execSend_later {s t : State} (hne : s.ctx.stage ≠ .start) (h : execSend s = .next t) :
    StepOf .bulkWrite s t := by
  rcases execSend_next h with ⟨hst, -⟩ | ⟨hst, -⟩ | ⟨-, hloop⟩
  · exact absurd hst hne
  · exact absurd hst hne
  · exact stepOf_writeLoopStep (by decide) (endUpdates_writeDone (by decide)) rfl hloop

theorem stepOf_execRecv {s t : State} (h : execRecv s = .next t) : StepOf .recv s t := by
  rcases execRecv_next h with ⟨-, hloop⟩ | ⟨-, hloop⟩ | ⟨-, hloop⟩
  · exact stepOf_readLoopStep (by decide) endUpdates_recvReadDone rfl hloop
  · exact stepOf_readLoopStep (by decide) endUpdates_recvReadDone rfl hloop
  · exact stepOf_writeLoopStep (by decide) endUpdates_recvAckDone rfl hloop

/-- Every engine step is made of its operation's updates and at most one link call. -/
theorem stepOf_exec {i : Instr} {s t : State} (h : exec i s = .next t) : StepOf i s t := by
  cases i with
  | nop => obtain rfl := execNop_next h; exact .quiet (updates_endWith _ none s)
  | crc =>
    rcases execCrc_next h with ⟨-, rfl⟩ | ⟨-, rfl⟩
    · exact .quiet (updates_rangeError (by decide) s)
    · exact .quiet (.trans (.single (.crcResult s (by decide) _)) (updates_endWith _ none _))
  | swap =>
    rcases execSwap_next h with ⟨-, rfl⟩ | ⟨-, rfl⟩
    · exact .quiet (updates_rangeError (by decide) s)
    · exact .quiet (.trans (.single (.buffer s (b := .txbuf) (by decide) _)) (updates_endWith _ none _))
  | encode =>
    rcases execEncode_next h with ⟨-, rfl⟩ | ⟨-, rfl⟩
    · exact .quiet (updates_rangeError (by decide) s)
    · exact .quiet ((updates_encodeImage (by decide) (by decide) s).trans (updates_endWith _ none _))
  | decode => exact stepOf_execDecode h
  | bulkWrite => exact stepOf_execBulkWrite h
  | bulkRead => exact stepOf_execBulkRead h
  | send => exact stepOf_execSend h
  | recv => exact stepOf_execRecv h
  | guard => exact stepOf_execGuard h

/-! ### What the updates keep -/

/-- Setting bit k sets that bit alone. -/
theorem getLsbD_or_bit {w : Nat} (x : BitVec w) (k i : Nat) (hi : i < w) :
    (x ||| (1 <<< k)).getLsbD i = (x.getLsbD i || decide (i = k)) := by
  have hbit : (BitVec.ofNat w (1 <<< k)).getLsbD i = decide (i = k) := by
    rw [BitVec.getLsbD_ofNat, Nat.one_shiftLeft, Nat.testBit_two_pow]
    simp [hi, eq_comm]
  exact (BitVec.getLsbD_or ..).trans (congrArg (x.getLsbD i || ·) hbit)

theorem flag_bit_lt (f : Flag) : f.bit < 17 := by
  cases f <;> decide

theorem flag_bit_inj {f g : Flag} : g.bit = f.bit ↔ g = f := by
  cases f <;> cases g <;> simp [Flag.bit]

theorem hasSticky_flag (s : State) (f : Flag) (i : Nat) (hi : i < 19) :
    (s.flag f).hasSticky i = (s.hasSticky i || decide (i = f.bit)) := getLsbD_or_bit _ _ _ hi

/-- R12's `flag F`, on all of FLAGS and STICKY. -/
theorem flagsAdded_flag (s : State) (f : Flag) : FlagsAdded [f] s (s.flag f) := by
  have hlt := flag_bit_lt f
  refine ⟨fun g => ?_, fun g => ?_, ?_, ?_⟩
  · simpa using hasFlag_flag s f g
  · rw [hasSticky_flag s f _ ((flag_bit_lt g).trans (by decide))]
    simp [flag_bit_inj]
  · rw [hasSticky_flag s f _ (by decide)]
    simp [busyRejectBit, hlt.ne']
  · rw [hasSticky_flag s f _ (by decide)]
    simp [badAccessBit, (hlt.trans (by decide : 17 < 18)).ne']

/-- An update makes no link call and writes no operand register but RX_COUNT. -/
theorem update_kept {i : Instr} {s t : State} (h : Update i s t) :
    (t.cfg = s.cfg ∧ t.timeout = s.timeout ∧ t.config = s.config) ∧
    (t.linkLog = s.linkLog ∧ t.chunks = s.chunks ∧ t.answers = s.answers) := by
  cases h with
  | @buffer b _ _ => cases b <;> exact ⟨⟨rfl, rfl, rfl⟩, rfl, rfl, rfl⟩
  | _ => exact ⟨⟨rfl, rfl, rfl⟩, rfl, rfl, rfl⟩

theorem updates_kept {i : Instr} {s t : State} (h : Updates i s t) :
    (t.cfg = s.cfg ∧ t.timeout = s.timeout ∧ t.config = s.config) ∧
    (t.linkLog = s.linkLog ∧ t.chunks = s.chunks ∧ t.answers = s.answers) := by
  induction h with
  | refl => exact ⟨⟨rfl, rfl, rfl⟩, rfl, rfl, rfl⟩
  | tail _ hlast ih =>
    obtain ⟨⟨h1, h2, h3⟩, h4, h5, h6⟩ := update_kept hlast
    rwa [h1, h2, h3, h4, h5, h6]

/-- What an update does to FLAGS and STICKY: it sets one flag of the rule, or none. -/
theorem update_flags {i : Instr} {s t : State} (h : Update i s t) :
    ∃ fs, (∀ f ∈ fs, f ∈ flagsWritten i) ∧ FlagsAdded fs s t := by
  cases h with
  | @flag f hf => exact ⟨[f], by simpa using hf, flagsAdded_flag s f⟩
  | @buffer b _ _ => cases b <;> exact ⟨[], by simp, flagsAdded_of_eq rfl rfl⟩
  | _ => exact ⟨[], by simp, flagsAdded_of_eq rfl rfl⟩

theorem updates_flags {i : Instr} {s t : State} (h : Updates i s t) :
    ∃ fs, (∀ f ∈ fs, f ∈ flagsWritten i) ∧ FlagsAdded fs s t := by
  induction h with
  | refl => exact ⟨[], by simp, flagsAdded_refl s⟩
  | tail _ hlast ih =>
    obtain ⟨fs, hfs, hadd⟩ := ih
    obtain ⟨gs, hgs, hadd'⟩ := update_flags hlast
    refine ⟨fs ++ gs, fun f hf => ?_, flagsAdded_trans hadd hadd'⟩
    exact (List.mem_append.mp hf).elim (hfs f) (hgs f)

/-- Settles O10: every update sets a flag of its operation's rule or none, and a link call none. -/
theorem engineStepFlagsOnlyItsOwn : Obligations.EngineStepFlagsOnlyItsOwn := by
  intro i s t h
  cases stepOf_exec h with
  | quiet hup => exact updates_flags hup
  | call _ u ev rest d before _ after =>
    obtain ⟨fs, hfs, hadd⟩ := updates_flags before
    obtain ⟨gs, hgs, hadd'⟩ := updates_flags after
    have hcall : FlagsAdded gs u t := flagsAdded_congr hadd' rfl rfl rfl rfl
    refine ⟨fs ++ gs, fun f hf => ?_, flagsAdded_trans hadd hcall⟩
    exact (List.mem_append.mp hf).elim (hfs f) (hgs f)

theorem regsKeptBut_trans {rs : List Reg} {s t u : State} (h : RegsKeptBut rs s t)
    (k : RegsKeptBut rs t u) : RegsKeptBut rs s u := fun r hr => (k r hr).trans (h r hr)

theorem status_mem_regsWritten (i : Instr) : Reg.status ∈ regsWritten i := by
  cases i <;> decide

/-- An operation that sets a flag writes FLAGS and STICKY. -/
theorem flags_mem_regsWritten {i : Instr} {f : Flag} (h : f ∈ flagsWritten i) :
    Reg.flags ∈ regsWritten i ∧ Reg.sticky ∈ regsWritten i := by
  cases i
  case nop => simp [flagsWritten] at h
  all_goals decide

/-- An update changes at most the registers its operation's rule writes: a register whose value changed
is the one the update names. -/
theorem update_regs {i : Instr} {s t : State} (h : Update i s t) : RegsKeptBut (regsWritten i) s t := by
  intro r hr
  by_contra hne
  cases h with
  | lifecycle => cases r <;> simp [regValue] at hne; exact hr (status_mem_regsWritten i)
  | @flag f hf =>
    obtain ⟨hflags, hsticky⟩ := flags_mem_regsWritten hf
    cases r <;> simp [regValue] at hne
    · exact hr hflags
    · exact hr hsticky
  | @buffer b _ _ => cases b <;> cases r <;> exact hne rfl
  | crcResult h | guardOut h | txWireLen h | rxLen h | rxCmd h | rxCrc h | rxCount h | resultCount h
  | linkErr h => cases r <;> simp [regValue] at hne; exact hr h

theorem updates_regs {i : Instr} {s t : State} (h : Updates i s t) :
    RegsKeptBut (regsWritten i) s t := by
  induction h with
  | refl => exact fun _ _ => rfl
  | tail _ hlast ih => exact regsKeptBut_trans ih (update_regs hlast)

/-- A link call changes CHUNKS alone. -/
theorem regsKeptBut_logCall {i : Instr} (hi : i ∈ linkOps) (u : State) (ev : LinkEvent)
    (rest : List LinkAnswer) (d : Nat) :
    RegsKeptBut (regsWritten i) u { u.logCall ev with answers := rest, draws := d } := by
  have hchunks : Reg.chunks ∈ regsWritten i := by
    revert i
    decide
  intro r hr
  cases r
  case chunks => exact absurd hchunks hr
  all_goals rfl

/-- Settles O11: the register frame of the updates and of a link call. -/
theorem engineStepWritesOnlyItsRegisters : Obligations.EngineStepWritesOnlyItsRegisters := by
  intro i s t h
  refine ⟨?_, surroundingsKept_exec h⟩
  cases stepOf_exec h with
  | quiet hup => exact updates_regs hup
  | call hi u ev rest d before _ after =>
    have hcall := regsKeptBut_logCall hi u ev rest d
    exact regsKeptBut_trans (updates_regs before) (regsKeptBut_trans hcall (updates_regs after))

theorem update_buffers {i : Instr} {s t : State} (h : Update i s t) {b : Buf}
    (hb : b ∉ buffersWritten i) : t.buffer b = s.buffer b := by
  cases h with
  | @buffer b' hb' m =>
    have hne : b ≠ b' := fun e => hb (e ▸ hb')
    exact setBuffer_buffer_ne s m hne
  | _ => cases b <;> rfl

theorem updates_buffers {i : Instr} {s t : State} (h : Updates i s t) {b : Buf}
    (hb : b ∉ buffersWritten i) : t.buffer b = s.buffer b := by
  induction h with
  | refl => rfl
  | tail _ hlast ih => exact (update_buffers hlast hb).trans ih

/-- A step leaves every buffer that its operation's rule does not write. -/
theorem stepOf_buffers {i : Instr} {s t : State} (h : StepOf i s t) {b : Buf}
    (hb : b ∉ buffersWritten i) : t.buffer b = s.buffer b := by
  cases h with
  | quiet hup => exact updates_buffers hup hb
  | call _ u ev rest d before _ after =>
    have hcall : State.buffer { u.logCall ev with answers := rest, draws := d } b = u.buffer b := by
      cases b <;> rfl
    rw [updates_buffers after hb, hcall, updates_buffers before hb]

/-- Settles O12: the buffer frame of a step; a later step of SEND is one of BULK_WRITE's. -/
theorem engineStepWritesOnlyItsBuffers : Obligations.EngineStepWritesOnlyItsBuffers := by
  intro i s t h
  refine ⟨fun b o hb => by rw [stepOf_buffers (stepOf_exec h) hb], ?_⟩
  rintro rfl hne b o
  rw [stepOf_buffers (stepOf_execSend_later hne h) (by simp [buffersWritten])]

/-- Settles O48: the updates make no call, so a step's one call is the only one. -/
theorem engineStepMakesAtMostOneCall : Obligations.EngineStepMakesAtMostOneCall := by
  refine ⟨fun i s t h => ?_, fun _ _ => rfl, rfl⟩
  cases stepOf_exec h with
  | quiet hup => exact .inl (updates_kept hup).2
  | call hi u ev rest d before hev after =>
    obtain ⟨⟨hcfg, htimeout, -⟩, hlog, hchunks, -⟩ := updates_kept before
    obtain ⟨-, hlog', hchunks', -⟩ := updates_kept after
    refine .inr ⟨hi, ev, ?_, ?_, ?_⟩
    · rw [hlog', ← hlog]; rfl
    · rw [hchunks', ← hchunks]; rfl
    · simpa only [CallInContract, hcfg, htimeout] using hev

end Sys2Proof.Machine
end

section
/-! SUPPORT. Noninterference: no operation reads FLAGS, STICKY, or CONFIG above bit 3 (10_state.md R28,
R48). Two states that differ only there take the same steps, side by side. -/

namespace Sys2Proof.Machine

/-! ### States that differ in flags and in CONFIG above bit 3 -/

/-- `s'` is `s` with CONFIG v, equal to that of `s` in bits 3:0, and with any FLAGS and STICKY; the same
FLAGS and STICKY where `same` holds. -/
def Twins (same : Prop) (v : BitVec 9) (s s' : State) : Prop :=
  v.extractLsb' 0 4 = s.config.extractLsb' 0 4 ∧
  ∃ f k, s' = { s with config := v, flags := f, sticky := k } ∧ (same → f = s.flags ∧ k = s.sticky)

/-- An update that neither reads nor writes CONFIG, FLAGS and STICKY. -/
def Blind (g : State → State) : Prop :=
  ∀ s v f k, g { s with config := v, flags := f, sticky := k } =
      { g s with config := v, flags := f, sticky := k } ∧
    (g s).config = s.config ∧ (g s).flags = s.flags ∧ (g s).sticky = s.sticky

/-- Two states alike in everything an operation reads to decide what it does. -/
structure SameInputs (s s' : State) : Prop where
  cfg : s'.cfg = s.cfg
  ctx : s'.ctx = s.ctx
  xferCount : s'.xferCount = s.xferCount
  payloadLen : s'.payloadLen = s.payloadLen
  transmitLen : s'.transmitLen = s.transmitLen
  rxLength : s'.rxLength = s.rxLength
  guardInput : s'.guardInput = s.guardInput
  rxCrcEmbedded : s'.rxCrcEmbedded = s.rxCrcEmbedded
  txbuf : s'.txbuf = s.txbuf
  rxbuf : s'.rxbuf = s.rxbuf
  rxpkt : s'.rxpkt = s.rxpkt
  answers : s'.answers = s.answers
  crcMode : s'.crcMode = s.crcMode
  shortAccept : s'.shortAccept = s.shortAccept
  autoAck : s'.autoAck = s.autoAck

/-- Two outcomes alike: next states in relation R, or the same stop. -/
inductive SameOutcome (R : State → State → Prop) : Result → Result → Prop
  | next {t t' : State} (h : R t t') : SameOutcome R (.next t) (.next t')
  | fault (f : Fault) : SameOutcome R (.fault f) (.fault f)
  | refused (r : Refusal) : SameOutcome R (.refused r) (.refused r)

/-- The CRC a validation compares, stored where the host reads it (40_packet_codec.md R105). -/
def withComputed (d : Nat) (s : State) : State :=
  { s with rxCrcComputed := crc16 s.cfg (s.rxpkt.bytes 4 (d - 4)) }

theorem compareCrc_eq (d : Nat) (s : State) :
    compareCrc d s =
      if (withComputed d s).rxCrcComputed = s.rxCrcEmbedded then
        (((withComputed d s).flag .crcChecked).flag .rxValid, none)
      else if s.crcMode = 2 then (((withComputed d s).flag .crcChecked).flag .crcMismatch, some .crc)
      else ((((withComputed d s).flag .crcChecked).flag .crcMismatch).flag .rxValid, none) := rfl

theorem linkWrite_unlisted {ep : Byte} {bs : List Byte} {s : State} (h : s.answers = []) :
    linkWrite ep bs s = some (clampWrite bs.length (Config.freeWriteAnswer s.draws),
      { s.logCall (.write ep bs s.timeout (some (clampWrite bs.length (Config.freeWriteAnswer s.draws))))
        with draws := s.draws + 1 }) := by
  simp [linkWrite, h]

theorem linkRead_unlisted {ep : Byte} {n : Nat} {s : State} (h : s.answers = []) :
    linkRead ep n s = some (clampRead n (Config.freeReadAnswer s.draws),
      { s.logCall (.read ep n s.timeout (some (clampRead n (Config.freeReadAnswer s.draws))))
        with draws := s.draws + 1 }) := by
  simp [linkRead, h]

/-- A range check that decides alike on both sides. -/
theorem sameOutcome_ite {R : State → State → Prop} {p p' : Prop} [Decidable p] [Decidable p']
    {r₁ r₁' r₂ r₂' : Result} (hp : p' ↔ p) (h₁ : SameOutcome R r₁ r₁') (h₂ : SameOutcome R r₂ r₂') :
    SameOutcome R (if p then r₁ else r₂) (if p' then r₁' else r₂') := by
  by_cases h : p
  · rwa [if_pos h, if_pos (hp.mpr h)]
  · rwa [if_neg h, if_neg (mt hp.mp h)]

section Twins
variable {same : Prop} {v : BitVec 9} {s s' : State} (h : Twins same v s s')
include h

theorem twins_blind {g : State → State} (hg : Blind g) : Twins same v (g s) (g s') := by
  obtain ⟨hlow, f, k, rfl, hsame⟩ := h
  obtain ⟨heq, hconfig, hflags, hsticky⟩ := hg s v f k
  exact ⟨by rw [hconfig]; exact hlow, f, k, heq, by rw [hflags, hsticky]; exact hsame⟩

theorem twins_flag (x : Flag) : Twins same v (s.flag x) (s'.flag x) := by
  obtain ⟨hlow, f, k, rfl, hsame⟩ := h
  refine ⟨hlow, f ||| (1 <<< x.bit), k ||| (1 <<< x.bit), rfl, fun hs => ?_⟩
  obtain ⟨hf, hk⟩ := hsame hs
  rw [hf, hk]
  exact ⟨rfl, rfl⟩

theorem twins_flagIf (b : Bool) (x : Flag) : Twins same v (s.flagIf b x) (s'.flagIf b x) := by
  cases b with
  | false => exact h
  | true => exact twins_flag h x

/-! ### What an operation reads of them -/

theorem twins_config_bit {i : Nat} (hi : i < 4) : s'.config.getLsbD i = s.config.getLsbD i := by
  obtain ⟨hlow, _, _, rfl, -⟩ := h
  simpa [hi] using congrArg (·.getLsbD i) hlow

theorem twins_crcMode : s'.crcMode = s.crcMode := by
  unfold State.crcMode
  congr 1
  apply BitVec.eq_of_getLsbD_eq
  intro i hi
  simpa [hi] using twins_config_bit h (i := i) (by omega)

/-- Of CONFIG an operation reads CRC_MODE, SHORT_ACCEPT and AUTO_ACK, bits 3:0. -/
theorem twins_inputs : SameInputs s s' := by
  have hmode := twins_crcMode h
  have hshort : s'.shortAccept = s.shortAccept := twins_config_bit h (by decide)
  have hack : s'.autoAck = s.autoAck := twins_config_bit h (by decide)
  obtain ⟨-, _, _, rfl, -⟩ := h
  exact ⟨rfl, rfl, rfl, rfl, rfl, rfl, rfl, rfl, rfl, rfl, rfl, rfl, hmode, hshort, hack⟩

/-! ### Shared operations -/

theorem twins_endWith (e : Option ErrCode) : Twins same v (endWith e s) (endWith e s') := by
  cases e <;> exact twins_blind h fun _ _ _ _ => ⟨rfl, rfl, rfl, rfl⟩

theorem twins_rangeError : Twins same v (rangeError s) (rangeError s') :=
  twins_endWith (twins_flag h .rangeErr) (some .range)

theorem twins_encodeImage : Twins same v (encodeImage s) (encodeImage s') :=
  twins_blind h fun _ _ _ _ => ⟨rfl, rfl, rfl, rfl⟩

theorem twins_setReceived (n : Nat) : Twins same v (s.setReceived n) (s'.setReceived n) :=
  twins_blind (g := (·.setReceived n)) h fun _ _ _ _ => ⟨rfl, rfl, rfl, rfl⟩

theorem twins_continueWith (c : Ctx) : Twins same v (s.continueWith c) (s'.continueWith c) :=
  twins_blind (g := (·.continueWith c)) h fun _ _ _ _ => ⟨rfl, rfl, rfl, rfl⟩

theorem twins_warn512 (n : Nat) : Twins same v (warn512 n s) (warn512 n s') := by
  unfold warn512
  rw [(twins_inputs h).cfg]
  exact twins_flagIf h _ _

theorem twins_isEarlyFileData (n : Nat) : isEarlyFileData n s' = isEarlyFileData n s := by
  unfold isEarlyFileData
  rw [(twins_inputs h).cfg, (twins_inputs h).rxbuf]

theorem twins_markEarly (n : Nat) : Twins same v (markEarly n s) (markEarly n s') := by
  unfold markEarly
  rw [twins_isEarlyFileData h]
  exact twins_flagIf h _ _

theorem twins_recoverPacket (n : Nat) : Twins same v (recoverPacket n s) (recoverPacket n s') :=
  twins_blind h fun _ _ _ _ => ⟨rfl, rfl, rfl, rfl⟩

/-- A CRC comparison gives twins and the same error. -/
theorem twins_compareCrc (d : Nat) :
    Twins same v (compareCrc d s).1 (compareCrc d s').1 ∧ (compareCrc d s').2 = (compareCrc d s).2 := by
  have hchk : Twins same v ((withComputed d s).flag .crcChecked) ((withComputed d s').flag .crcChecked) :=
    twins_flag (twins_blind (g := withComputed d) h fun _ _ _ _ => ⟨rfl, rfl, rfl, rfl⟩) _
  have hcom : (withComputed d s').rxCrcComputed = (withComputed d s).rxCrcComputed := by
    simp only [withComputed, (twins_inputs h).cfg, (twins_inputs h).rxpkt]
  rw [compareCrc_eq, compareCrc_eq, hcom, (twins_inputs h).rxCrcEmbedded, (twins_inputs h).crcMode]
  split
  · exact ⟨twins_flag hchk _, rfl⟩
  · split
    · exact ⟨twins_flag hchk _, rfl⟩
    · exact ⟨twins_flag (twins_flag hchk _) _, rfl⟩

/-- A validation gives twins and the same error: of CONFIG it reads CRC_MODE and SHORT_ACCEPT alone. -/
theorem twins_validate (n : Nat) :
    Twins same v (validate n s).1 (validate n s').1 ∧ (validate n s').2 = (validate n s).2 := by
  have hrec := twins_recoverPacket h n
  have hlen : declaredLen s' = declaredLen s := by
    unfold declaredLen
    rw [(twins_inputs h).rxbuf]
  have hmode := (twins_inputs hrec).crcMode
  have hshort := (twins_inputs (twins_flag hrec .shortPacket)).shortAccept
  unfold validate
  simp only [(twins_inputs h).cfg, hlen, hmode, hshort]
  split
  · exact ⟨twins_flag h _, rfl⟩
  · split
    · exact ⟨twins_flag hrec _, rfl⟩
    · split
      · split
        · exact ⟨twins_flag (twins_flag hrec _) _, rfl⟩
        · exact ⟨twins_flag hrec _, rfl⟩
      · split
        · exact ⟨twins_flag hrec _, rfl⟩
        · exact twins_compareCrc hrec _

/-! ### Chunk loops -/

/-- A link write is stopped, or answered alike, on both sides. -/
theorem twins_linkWrite (ep : Byte) (bs : List Byte) :
    (linkWrite ep bs s = none ∧ linkWrite ep bs s' = none) ∨
    ∃ a u u', linkWrite ep bs s = some (a, u) ∧ linkWrite ep bs s' = some (a, u') ∧ Twins same v u u' := by
  have hans := (twins_inputs h).answers
  cases han : s.answers with
  | nil =>
    obtain ⟨hlow, f, k, rfl, hsame⟩ := h
    exact .inr ⟨_, _, _, linkWrite_unlisted han, linkWrite_unlisted (hans.trans han),
      hlow, f, k, rfl, hsame⟩
  | cons x rest =>
    cases x with
    | read b =>
      exact .inl ⟨(linkWrite_none_iff _ _ _).mpr (.inr ⟨b, rest, han⟩),
        (linkWrite_none_iff _ _ _).mpr (.inr ⟨b, rest, hans.trans han⟩)⟩
    | write a =>
      cases hw : writeWithin bs.length a with
      | false =>
        exact .inl ⟨(linkWrite_none_iff _ _ _).mpr (.inl ⟨a, rest, han, hw⟩),
          (linkWrite_none_iff _ _ _).mpr (.inl ⟨a, rest, hans.trans han, hw⟩)⟩
      | true =>
        obtain ⟨hlow, f, k, rfl, hsame⟩ := h
        exact .inr ⟨_, _, _, linkWrite_listed han hw, linkWrite_listed (hans.trans han) hw,
          hlow, f, k, rfl, hsame⟩

/-- A link read likewise. -/
theorem twins_linkRead (ep : Byte) (n : Nat) :
    (linkRead ep n s = none ∧ linkRead ep n s' = none) ∨
    ∃ a u u', linkRead ep n s = some (a, u) ∧ linkRead ep n s' = some (a, u') ∧ Twins same v u u' := by
  have hans := (twins_inputs h).answers
  cases han : s.answers with
  | nil =>
    obtain ⟨hlow, f, k, rfl, hsame⟩ := h
    exact .inr ⟨_, _, _, linkRead_unlisted han, linkRead_unlisted (hans.trans han),
      hlow, f, k, rfl, hsame⟩
  | cons x rest =>
    cases x with
    | write b =>
      exact .inl ⟨(linkRead_none_iff _ _ _).mpr (.inr ⟨b, rest, han⟩),
        (linkRead_none_iff _ _ _).mpr (.inr ⟨b, rest, hans.trans han⟩)⟩
    | read a =>
      cases hw : readWithin n a with
      | false =>
        exact .inl ⟨(linkRead_none_iff _ _ _).mpr (.inl ⟨a, rest, han, hw⟩),
          (linkRead_none_iff _ _ _).mpr (.inl ⟨a, rest, hans.trans han, hw⟩)⟩
      | true =>
        obtain ⟨hlow, f, k, rfl, hsame⟩ := h
        exact .inr ⟨_, _, _, linkRead_listed han hw, linkRead_listed (hans.trans han) hw,
          hlow, f, k, rfl, hsame⟩

end Twins

/-- What is left of an operation when its loop ends gives twins for twins. -/
def EndTwins (fin : Nat → Stop → State → State) : Prop :=
  ∀ {same : Prop} {v : BitVec 9} {s s' : State} (n : Nat) (stop : Stop),
    Twins same v s s' → Twins same v (fin n stop s) (fin n stop s')

section Operations
variable {same : Prop} {v : BitVec 9} {s s' : State} (h : Twins same v s s')
include h

theorem twins_linkErr (e : Word) : Twins same v { s with linkErr := e } { s' with linkErr := e } :=
  twins_blind (g := fun s => { s with linkErr := e }) h fun _ _ _ _ => ⟨rfl, rfl, rfl, rfl⟩

theorem twins_rxbuf (o : Nat) (bs : List Byte) :
    Twins same v { s with rxbuf := s.rxbuf.write o bs } { s' with rxbuf := s'.rxbuf.write o bs } :=
  twins_blind (g := fun s => { s with rxbuf := s.rxbuf.write o bs }) h
    fun _ _ _ _ => ⟨rfl, rfl, rfl, rfl⟩

theorem twins_afterWrite {fin : Nat → Stop → State → State} (hfin : EndTwins fin) (c : Ctx)
    (a : WriteAnswer) : Twins same v (afterWrite fin c a s) (afterWrite fin c a s') := by
  cases a with
  | err e => exact hfin _ _ (twins_flag (twins_flag (twins_linkErr h e) _) _)
  | ok k =>
    simp only [afterWrite]
    split
    · exact hfin _ _ (twins_flag (twins_flag h _) _)
    · split
      · exact twins_continueWith h _
      · exact hfin _ _ h

theorem twins_afterRead {fin : Nat → Stop → State → State} (hfin : EndTwins fin) (c : Ctx) (asked : Nat)
    (a : ReadAnswer) : Twins same v (afterRead fin c asked a s) (afterRead fin c asked a s') := by
  cases a with
  | err e => exact hfin _ _ (twins_flag (twins_linkErr h e) _)
  | ok bs =>
    have hstore := twins_rxbuf h c.cursor bs
    simp only [afterRead]
    split
    · exact hfin _ _ (twins_flag hstore _)
    · split
      · exact twins_continueWith hstore _
      · exact hfin _ _ hstore

theorem twins_chunkSize (c : Ctx) : chunkSize s' c = chunkSize s c := by
  unfold chunkSize
  rw [(twins_inputs h).cfg]

theorem twins_writeLoopStep {fin : Nat → Stop → State → State} (hfin : EndTwins fin) (ep : Byte)
    (src : List Byte) (c : Ctx) :
    SameOutcome (Twins same v) (writeLoopStep ep src fin c s) (writeLoopStep ep src fin c s') := by
  unfold writeLoopStep
  rw [twins_chunkSize h]
  split
  · rcases twins_linkWrite h ep ((src.drop c.cursor).take (chunkSize s c)) with
      ⟨h1, h2⟩ | ⟨a, u, u', h1, h2, hu⟩ <;> rw [h1, h2]
    · exact .fault _
    · exact .next (twins_afterWrite hu hfin c a)
  · exact .next (hfin _ _ h)

theorem twins_readLoopStep {fin : Nat → Stop → State → State} (hfin : EndTwins fin) (ep : Byte)
    (c : Ctx) :
    SameOutcome (Twins same v) (readLoopStep ep fin c s) (readLoopStep ep fin c s') := by
  unfold readLoopStep
  rw [twins_chunkSize h]
  split
  · rcases twins_linkRead h ep (chunkSize s c) with ⟨h1, h2⟩ | ⟨a, u, u', h1, h2, hu⟩ <;> rw [h1, h2]
    · exact .fault _
    · exact .next (twins_afterRead hu hfin c _ a)
  · exact .next (hfin _ _ h)

theorem twins_recvValidate (n : Nat) (b : Bool) :
    Twins same v (recvValidate n b s) (recvValidate n b s') := by
  obtain ⟨hval, herr⟩ := twins_validate h n
  rw [recvValidate_eq, recvValidate_eq, herr]
  exact twins_endWith hval _

end Operations

theorem endTwins_writeDone : EndTwins writeDone := fun n stop h =>
  twins_endWith (twins_blind (g := fun s => { s with resultCount := BitVec.ofNat 17 n }) h
    fun _ _ _ _ => ⟨rfl, rfl, rfl, rfl⟩) stop

theorem endTwins_readDone : EndTwins readDone := fun n stop h => twins_endWith (twins_setReceived h n) stop

theorem endTwins_recvReadDone : EndTwins recvReadDone := by
  intro same v s s' got stop h
  have hrec := twins_setReceived h got
  have hmark := twins_markEarly hrec got
  unfold recvReadDone
  cases stop with
  | some e => exact twins_endWith hrec (some e)
  | none =>
    simp only [twins_isEarlyFileData hrec, (twins_inputs hmark).autoAck, (twins_inputs hmark).ctx]
    split
    · exact twins_continueWith (twins_warn512 hmark 8) _
    · exact twins_recvValidate hmark got false

theorem endTwins_recvAckDone : EndTwins recvAckDone := by
  intro same v s s' sent stop h
  unfold recvAckDone
  rw [(twins_inputs h).rxLength]
  split
  · exact twins_recvValidate (twins_flag h _) _ _
  · exact twins_recvValidate (twins_flag h _) _ _

/-! ### Operations -/

section Operations
variable {same : Prop} {v : BitVec 9} {s s' : State} (h : Twins same v s s')
include h

theorem twins_xfer_range : s'.cfg.bufSize < s'.xferCount ↔ s.cfg.bufSize < s.xferCount := by
  rw [(twins_inputs h).cfg, (twins_inputs h).xferCount]

theorem twins_payload_range : s'.cfg.maxPayload < s'.payloadLen ↔ s.cfg.maxPayload < s.payloadLen := by
  rw [(twins_inputs h).cfg, (twins_inputs h).payloadLen]

theorem twins_execCrc : SameOutcome (Twins same v) (execCrc s) (execCrc s') :=
  sameOutcome_ite (twins_xfer_range h) (.next (twins_rangeError h))
    (.next (twins_blind (g := fun s =>
      finish { s with crcResult := crc16 s.cfg (s.txbuf.bytes 0 s.xferCount) }) h
      fun _ _ _ _ => ⟨rfl, rfl, rfl, rfl⟩))

theorem twins_execSwap : SameOutcome (Twins same v) (execSwap s) (execSwap s') :=
  sameOutcome_ite (twins_xfer_range h) (.next (twins_rangeError h))
    (.next (twins_blind (g := fun s =>
      finish { s with txbuf := s.txbuf.write 0 (pairSwap (s.txbuf.bytes 0 s.xferCount)) }) h
      fun _ _ _ _ => ⟨rfl, rfl, rfl, rfl⟩))

theorem twins_execEncode : SameOutcome (Twins same v) (execEncode s) (execEncode s') :=
  sameOutcome_ite (twins_payload_range h) (.next (twins_rangeError h))
    (.next (twins_endWith (twins_encodeImage h) none))

theorem twins_execDecode : SameOutcome (Twins same v) (execDecode s) (execDecode s') := by
  unfold execDecode
  rw [(twins_inputs h).cfg, (twins_inputs h).rxLength]
  obtain ⟨hval, herr⟩ := twins_validate (twins_markEarly h s.rxLength) s.rxLength
  refine sameOutcome_ite .rfl (.next (twins_rangeError h)) (.next ?_)
  rw [herr]
  exact twins_endWith hval _

theorem twins_execGuard : SameOutcome (Twins same v) (execGuard s) (execGuard s') := by
  unfold execGuard
  rw [(twins_inputs h).cfg, (twins_inputs h).guardInput]
  have hout := twins_blind (g := fun s₁ => { s₁ with
    guardWAdj := BitVec.ofNat 16 (guardChunk s.cfg s.guardInput).wAdj
    guardRewind := BitVec.ofNat 8 (guardChunk s.cfg s.guardInput).rewind }) h
    fun _ _ _ _ => ⟨rfl, rfl, rfl, rfl⟩
  exact sameOutcome_ite .rfl (.next (twins_rangeError h))
    (.next (twins_endWith (twins_flagIf hout _ _) none))

theorem twins_execBulkWrite : SameOutcome (Twins same v) (execBulkWrite s) (execBulkWrite s') := by
  unfold execBulkWrite
  rw [(twins_inputs h).ctx, (twins_inputs h).cfg, (twins_inputs h).xferCount, (twins_inputs h).txbuf]
  split
  · exact sameOutcome_ite .rfl (.next (twins_rangeError h))
      (twins_writeLoopStep (twins_warn512 h _) endTwins_writeDone _ _ _)
  · exact twins_writeLoopStep h endTwins_writeDone _ _ _

theorem twins_execBulkRead : SameOutcome (Twins same v) (execBulkRead s) (execBulkRead s') := by
  unfold execBulkRead
  rw [(twins_inputs h).ctx, (twins_inputs h).cfg, (twins_inputs h).xferCount]
  split
  · exact sameOutcome_ite .rfl (.next (twins_rangeError h))
      (twins_readLoopStep h endTwins_readDone _ _)
  · exact twins_readLoopStep h endTwins_readDone _ _

theorem twins_wireImage (n : Nat) : wireImage s' n = wireImage s n := by
  unfold wireImage
  rw [(twins_inputs h).txbuf]

theorem twins_sendPrepare : Twins same v (sendPrepare s) (sendPrepare s') := by
  unfold sendPrepare
  rw [(twins_inputs h).transmitLen]
  exact twins_warn512 (twins_encodeImage h) _

theorem twins_execSend : SameOutcome (Twins same v) (execSend s) (execSend s') := by
  have hprep := twins_sendPrepare h
  unfold execSend
  rw [(twins_inputs h).ctx, (twins_inputs h).cfg, (twins_inputs h).payloadLen,
    (twins_inputs h).transmitLen, twins_wireImage hprep, twins_wireImage h]
  split
  · exact sameOutcome_ite .rfl (.next (twins_rangeError h))
      (twins_writeLoopStep hprep endTwins_writeDone _ _ _)
  · exact twins_writeLoopStep h endTwins_writeDone _ _ _

theorem twins_execRecv : SameOutcome (Twins same v) (execRecv s) (execRecv s') := by
  unfold execRecv
  rw [(twins_inputs h).ctx, (twins_inputs h).cfg]
  split
  · exact twins_readLoopStep h endTwins_recvReadDone _ _
  · exact twins_readLoopStep h endTwins_recvReadDone _ _
  · exact twins_writeLoopStep h endTwins_recvAckDone _ _ _

/-- Twins take the same engine step, side by side. -/
theorem twins_exec (i : Instr) : SameOutcome (Twins same v) (exec i s) (exec i s') := by
  cases i with
  | nop => exact .next (twins_endWith h none)
  | crc => exact twins_execCrc h
  | swap => exact twins_execSwap h
  | encode => exact twins_execEncode h
  | decode => exact twins_execDecode h
  | bulkWrite => exact twins_execBulkWrite h
  | bulkRead => exact twins_execBulkRead h
  | send => exact twins_execSend h
  | recv => exact twins_execRecv h
  | guard => exact twins_execGuard h

end Operations

/-! ### The statements -/

theorem sameOutcome_next {R : State → State → Prop} {r r' : Result} {t : State} (h : SameOutcome R r r')
    (hr : r = .next t) : ∃ t', r' = .next t' ∧ R t t' := by
  cases h with
  | next h => obtain rfl := Host.Outcome.next.inj hr; exact ⟨_, rfl, h⟩
  | fault f => cases hr
  | refused x => cases hr

theorem sameOutcome_fault {R : State → State → Prop} {r r' : Result} {f : Fault} (h : SameOutcome R r r')
    (hr : r = .fault f) : r' = .fault f := by
  cases h with
  | next h => cases hr
  | fault g => exact hr
  | refused x => cases hr

/-- No operation writes CONFIG. -/
theorem exec_config {i : Instr} {s t : State} (h : exec i s = .next t) : t.config = s.config := by
  cases stepOf_exec h with
  | quiet hup => exact (updates_kept hup).1.2.2
  | call _ u ev rest d before _ after =>
    exact (updates_kept after).1.2.2.trans (updates_kept before).1.2.2

/-- Settles O13: twins with the same FLAGS and STICKY, whose CONFIG differs above bit 3 alone. -/
theorem traceAndQuietHaveNoEffect : Obligations.TraceAndQuietHaveNoEffect := by
  intro i s c hlow
  have h : Twins True c s { s with config := c } := ⟨hlow, s.flags, s.sticky, rfl, fun _ => ⟨rfl, rfl⟩⟩
  refine ⟨fun t ht => ?_, fun f hf => sameOutcome_fault (twins_exec h i) hf⟩
  obtain ⟨_, ht', -, _, _, rfl, hsame⟩ := sameOutcome_next (twins_exec h i) ht
  obtain ⟨rfl, rfl⟩ := hsame trivial
  exact ht'

/-- Settles O14: twins with the same CONFIG, which no operation writes. -/
theorem flagsAreNoInput : Obligations.FlagsAreNoInput := by
  intro i s f k
  have h : Twins False s.config s { s with flags := f, sticky := k } := ⟨rfl, f, k, rfl, False.elim⟩
  refine ⟨fun t ht => ?_, fun x hx => sameOutcome_fault (twins_exec h i) hx⟩
  obtain ⟨_, ht', -, f', k', rfl, -⟩ := sameOutcome_next (twins_exec h i) ht
  refine ⟨f', k', ht'.trans ?_⟩
  rw [exec_config ht]

end Sys2Proof.Machine
end

section
/-! SUPPORT. Where an engine step stops: exactly at a chunk call whose next listed answer is outside the
link contract (10_state.md R21, 41_bulk_transport.md R143, R144). -/

namespace Sys2Proof.Machine

/-! ### Answers outside the contract of a call -/

/-- The oldest listed answer is outside the contract of the call. -/
def Rejected (call : ChunkCall) (s : State) : Prop :=
  ∃ a rest, s.answers = a :: rest ∧ call.rejects a = true

theorem rejected_write_iff (n : Nat) (s : State) : Rejected (.write n) s ↔
    (∃ k rest, s.answers = .write (.ok k) :: rest ∧ n < k) ∨ (∃ b rest, s.answers = .read b :: rest) := by
  constructor
  · rintro ⟨a, rest, hans, hrej⟩
    cases a with
    | read b => exact .inr ⟨b, rest, hans⟩
    | write a =>
      cases a with
      | ok k => exact .inl ⟨k, rest, hans, by simpa [ChunkCall.rejects, writeWithin] using hrej⟩
      | err e => simp [ChunkCall.rejects, writeWithin] at hrej
  · rintro (⟨k, rest, hans, hk⟩ | ⟨b, rest, hans⟩)
    · exact ⟨_, rest, hans, by simpa [ChunkCall.rejects, writeWithin] using hk⟩
    · exact ⟨_, rest, hans, rfl⟩

theorem rejected_read_iff (n : Nat) (s : State) : Rejected (.read n) s ↔
    (∃ bs rest, s.answers = .read (.ok bs) :: rest ∧ n < bs.length) ∨
    (∃ b rest, s.answers = .write b :: rest) := by
  constructor
  · rintro ⟨a, rest, hans, hrej⟩
    cases a with
    | write b => exact .inr ⟨b, rest, hans⟩
    | read a =>
      cases a with
      | ok bs => exact .inl ⟨bs, rest, hans, by simpa [ChunkCall.rejects, readWithin] using hrej⟩
      | err e => simp [ChunkCall.rejects, readWithin] at hrej
  · rintro (⟨k, rest, hans, hk⟩ | ⟨b, rest, hans⟩)
    · exact ⟨_, rest, hans, by simpa [ChunkCall.rejects, readWithin] using hk⟩
    · exact ⟨_, rest, hans, rfl⟩

theorem linkWrite_none_iff_rejected (ep : Byte) (bs : List Byte) (s : State) :
    linkWrite ep bs s = none ↔ Rejected (.write bs.length) s := by
  rw [linkWrite_none_iff]
  constructor
  · rintro (⟨a, rest, hans, hw⟩ | ⟨a, rest, hans⟩)
    · exact ⟨_, rest, hans, by simp [ChunkCall.rejects, hw]⟩
    · exact ⟨_, rest, hans, rfl⟩
  · rintro ⟨a, rest, hans, hrej⟩
    cases a with
    | write a => exact .inl ⟨a, rest, hans, by simpa [ChunkCall.rejects] using hrej⟩
    | read a => exact .inr ⟨a, rest, hans⟩

theorem linkRead_none_iff_rejected (ep : Byte) (n : Nat) (s : State) :
    linkRead ep n s = none ↔ Rejected (.read n) s := by
  rw [linkRead_none_iff]
  constructor
  · rintro (⟨a, rest, hans, hw⟩ | ⟨a, rest, hans⟩)
    · exact ⟨_, rest, hans, by simp [ChunkCall.rejects, hw]⟩
    · exact ⟨_, rest, hans, rfl⟩
  · rintro ⟨a, rest, hans, hrej⟩
    cases a with
    | read a => exact .inl ⟨a, rest, hans, by simpa [ChunkCall.rejects] using hrej⟩
    | write a => exact .inr ⟨a, rest, hans⟩

/-! ### Chunk loops -/

/-- The call of a chunk step, if it makes one, is rejected. -/
def Stops (call : Option ChunkCall) (s : State) : Prop := ∃ c, call = some c ∧ Rejected c s

theorem not_stops_none (s : State) : ¬ Stops none s := by
  rintro ⟨_, h, -⟩
  cases h

theorem stops_some_iff (c : ChunkCall) (s : State) : Stops (some c) s ↔ Rejected c s := by
  simp [Stops]

theorem stops_nextChunk_iff (f : Nat → ChunkCall) (moved total : Nat) (s : State) :
    Stops ((nextChunk s moved total).map f) s ↔
      moved < total ∧ Rejected (f (min s.cfg.chunkMax (total - moved))) s := by
  by_cases h : moved < total
  · simp [nextChunk, h, stops_some_iff]
  · simp [nextChunk, h, not_stops_none]

/-- A write loop over `src` offers what is left of a chunk's bytes in `src`. -/
theorem writeLoopStep_fault_iff_stops (ep : Byte) (src : List Byte) (fin : Nat → Stop → State → State)
    (c : Ctx) (s : State) :
    writeLoopStep ep src fin c s = .fault .linkContract ↔
      Stops ((nextChunk s c.cursor c.target).map fun n => .write (min n (src.length - c.cursor))) s := by
  rw [writeLoopStep_fault_iff, linkWrite_none_iff_rejected, stops_nextChunk_iff, List.length_take,
    List.length_drop]
  rfl

/-- A write loop over exactly its total offers whole chunks. -/
theorem writeLoopStep_fault_iff_stops_whole {ep : Byte} {src : List Byte}
    {fin : Nat → Stop → State → State} {c : Ctx} {s : State} (hsrc : src.length = c.target) :
    writeLoopStep ep src fin c s = .fault .linkContract ↔
      Stops ((nextChunk s c.cursor c.target).map .write) s := by
  rw [writeLoopStep_fault_iff_stops, stops_nextChunk_iff, stops_nextChunk_iff, hsrc,
    Nat.min_eq_left (Nat.min_le_right _ _)]

theorem readLoopStep_fault_iff_stops (ep : Byte) (fin : Nat → Stop → State → State) (c : Ctx) (s : State) :
    readLoopStep ep fin c s = .fault .linkContract ↔
      Stops ((nextChunk s c.cursor c.target).map .read) s := by
  rw [readLoopStep_fault_iff, linkRead_none_iff_rejected, stops_nextChunk_iff]
  rfl

/-- Preparing a loop changes neither the chunk sizes nor the listed answers. -/
theorem stops_nextChunk_congr {f : Nat → ChunkCall} {moved total : Nat} {s u : State}
    (hcfg : u.cfg = s.cfg) (hans : u.answers = s.answers) :
    Stops ((nextChunk u moved total).map f) u ↔ Stops ((nextChunk s moved total).map f) s := by
  unfold Stops Rejected nextChunk
  rw [hcfg, hans]

/-! ### Operations -/

/-- A range check in front of a loop. -/
theorem range_fault_iff {p : Prop} [Decidable p] {s t : State} {r : Result} {call : Option ChunkCall}
    (h : r = .fault .linkContract ↔ Stops call s) :
    (if p then .next t else r) = Host.Outcome.fault (ρ := Refusal) Fault.linkContract ↔
      Stops (if p then none else call) s := by
  by_cases hp : p
  · simp [hp, not_stops_none]
  · simpa [hp] using h

theorem execBulkWrite_fault_iff (s : State) :
    execBulkWrite s = .fault .linkContract ↔ Stops (chunkCall .bulkWrite s) s := by
  have hwarn : (warn512 s.xferCount s).cfg = s.cfg ∧ (warn512 s.xferCount s).answers = s.answers := by
    simp [warn512]
  unfold execBulkWrite chunkCall
  cases hst : s.ctx.stage with
  | start =>
    refine range_fault_iff ((writeLoopStep_fault_iff_stops_whole ?_).trans
      (stops_nextChunk_congr hwarn.1 hwarn.2))
    exact bytes_length _ _ _
  | chunk => exact writeLoopStep_fault_iff_stops_whole (bytes_length _ _ _)
  | ackChunk => exact writeLoopStep_fault_iff_stops_whole (bytes_length _ _ _)

theorem execBulkRead_fault_iff (s : State) :
    execBulkRead s = .fault .linkContract ↔ Stops (chunkCall .bulkRead s) s := by
  unfold execBulkRead chunkCall
  cases hst : s.ctx.stage with
  | start => exact range_fault_iff (readLoopStep_fault_iff_stops _ _ _ _)
  | chunk => exact readLoopStep_fault_iff_stops _ _ _ _
  | ackChunk => exact readLoopStep_fault_iff_stops _ _ _ _

theorem wireImage_length (s : State) (n : Nat) : (wireImage s n).length = n := by
  rw [wireImage, pairSwap_length, bytes_length]

theorem execSend_fault_iff (s : State) :
    execSend s = .fault .linkContract ↔ Stops (chunkCall .send s) s := by
  have hprep : (sendPrepare s).cfg = s.cfg ∧ (sendPrepare s).answers = s.answers := by
    simp [sendPrepare, warn512, encodeImage]
  unfold execSend chunkCall
  cases hst : s.ctx.stage with
  | start =>
    refine range_fault_iff ((writeLoopStep_fault_iff_stops_whole ?_).trans
      (stops_nextChunk_congr hprep.1 hprep.2))
    exact wireImage_length _ _
  | chunk => exact writeLoopStep_fault_iff_stops_whole (wireImage_length _ _)
  | ackChunk => exact writeLoopStep_fault_iff_stops_whole (wireImage_length _ _)

theorem execRecv_fault_iff (s : State) :
    execRecv s = .fault .linkContract ↔ Stops (chunkCall .recv s) s := by
  unfold execRecv chunkCall
  cases hst : s.ctx.stage with
  | start => exact readLoopStep_fault_iff_stops _ _ _ _
  | chunk => exact readLoopStep_fault_iff_stops _ _ _ _
  | ackChunk => simpa using writeLoopStep_fault_iff_stops s.cfg.epOut (ackWire s.cfg) recvAckDone s.ctx s

theorem ite_next (p : Prop) [Decidable p] (t u : State) :
    ∃ w, (if p then .next t else .next u : Result) = .next w := by
  by_cases hp : p
  · exact ⟨t, if_pos hp⟩
  · exact ⟨u, if_neg hp⟩

/-- The operations that call no link always answer next. -/
theorem exec_next_of_not_linkOps {i : Instr} (hi : i ∉ linkOps) (s : State) : ∃ t, exec i s = .next t := by
  cases i with
  | nop => exact ⟨_, rfl⟩
  | crc => exact ite_next _ _ _
  | swap => exact ite_next _ _ _
  | encode => exact ite_next _ _ _
  | decode => exact ite_next _ _ _
  | guard => exact ite_next _ _ _
  | bulkWrite => exact absurd (by decide) hi
  | bulkRead => exact absurd (by decide) hi
  | send => exact absurd (by decide) hi
  | recv => exact absurd (by decide) hi

theorem chunkCall_of_not_linkOps {i : Instr} (hi : i ∉ linkOps) (s : State) : chunkCall i s = none := by
  cases i <;> simp [linkOps] at hi <;> rfl

/-- An engine step stops exactly where its chunk call is rejected. -/
theorem exec_fault_iff (i : Instr) (s : State) :
    exec i s = .fault .linkContract ↔ Stops (chunkCall i s) s := by
  by_cases hi : i ∈ linkOps
  · cases i
    case bulkWrite => exact execBulkWrite_fault_iff s
    case bulkRead => exact execBulkRead_fault_iff s
    case send => exact execSend_fault_iff s
    case recv => exact execRecv_fault_iff s
    all_goals simp [linkOps] at hi
  · obtain ⟨t, ht⟩ := exec_next_of_not_linkOps hi s
    simp [ht, chunkCall_of_not_linkOps hi, not_stops_none]

/-- A next state, or the link contract's stop. -/
def NextOrStop (r : Result) : Prop := (∃ t, r = .next t) ∨ r = .fault .linkContract

theorem nextOrStop_ite {p : Prop} [Decidable p] {t : State} {r : Result} (h : NextOrStop r) :
    NextOrStop (if p then .next t else r) := by
  by_cases hp : p
  · exact .inl ⟨t, if_pos hp⟩
  · rwa [if_neg hp]

theorem nextOrStop_writeLoopStep (ep : Byte) (src : List Byte) (fin : Nat → Stop → State → State)
    (c : Ctx) (s : State) : NextOrStop (writeLoopStep ep src fin c s) := by
  by_cases h : ∃ t, writeLoopStep ep src fin c s = .next t
  · exact .inl h
  · exact .inr (writeLoopStep_not_next (not_exists.mp h)).1

theorem nextOrStop_readLoopStep (ep : Byte) (fin : Nat → Stop → State → State) (c : Ctx) (s : State) :
    NextOrStop (readLoopStep ep fin c s) := by
  by_cases h : ∃ t, readLoopStep ep fin c s = .next t
  · exact .inl h
  · exact .inr (readLoopStep_not_next (not_exists.mp h)).1

/-- No operation refuses, and the only stop is the link contract's. -/
theorem nextOrStop_exec (i : Instr) (s : State) : NextOrStop (exec i s) := by
  by_cases hi : i ∈ linkOps
  · cases i
    case bulkWrite =>
      simp only [exec, execBulkWrite]
      split
      · exact nextOrStop_ite (nextOrStop_writeLoopStep _ _ _ _ _)
      · exact nextOrStop_writeLoopStep _ _ _ _ _
    case bulkRead =>
      simp only [exec, execBulkRead]
      split
      · exact nextOrStop_ite (nextOrStop_readLoopStep _ _ _ _)
      · exact nextOrStop_readLoopStep _ _ _ _
    case send =>
      simp only [exec, execSend]
      split
      · exact nextOrStop_ite (nextOrStop_writeLoopStep _ _ _ _ _)
      · exact nextOrStop_writeLoopStep _ _ _ _ _
    case recv =>
      simp only [exec, execRecv]
      split
      · exact nextOrStop_readLoopStep _ _ _ _
      · exact nextOrStop_readLoopStep _ _ _ _
      · exact nextOrStop_writeLoopStep _ _ _ _ _
    all_goals simp [linkOps] at hi
  · exact .inl (exec_next_of_not_linkOps hi s)

/-! ### The statement -/

section ChunkStage
variable {s : State} {c : Ctx} (hrun : s.engine = .run c) (hstage : c.stage = .chunk)
  (hlt : c.cursor < c.target)
include hrun hstage hlt

theorem chunkCall_write {i : Instr} (hi : i = .bulkWrite ∨ i = .send) :
    chunkCall i s = some (.write (min s.cfg.chunkMax (c.target - c.cursor))) := by
  rcases hi with rfl | rfl <;> simp [chunkCall, ctx_of_run hrun, hstage, nextChunk, hlt]

theorem chunkCall_read {i : Instr} (hi : i = .bulkRead ∨ i = .recv) :
    chunkCall i s = some (.read (min s.cfg.chunkMax (c.target - c.cursor))) := by
  rcases hi with rfl | rfl <;> simp [chunkCall, ctx_of_run hrun, hstage, nextChunk, hlt]

end ChunkStage

/-- Settles O49: an engine step answers next or stops, and it stops exactly where its chunk call is
rejected; each clause reads that off the call the operation makes. -/
theorem onlyAnswersOutsideContractStop : Obligations.OnlyAnswersOutsideContractStop := by
  intro i s
  have hstop := exec_fault_iff i s
  refine ⟨fun hnone => ?_, ?_, fun c hrun hstage hlt => ⟨fun hi => ?_, fun hi => ?_⟩, ?_⟩
  · rcases nextOrStop_exec i s with hnext | hfault
    · exact hnext
    · obtain ⟨_, -, a, rest, hans, -⟩ := hstop.mp hfault
      simp [hnone] at hans
  · rcases nextOrStop_exec i s with hnext | hfault
    · exact .inl hnext
    · refine .inr ⟨hfault, ?_⟩
      by_contra hi
      obtain ⟨t, ht⟩ := exec_next_of_not_linkOps hi s
      simp [ht] at hfault
  · rw [hstop, chunkCall_write hrun hstage hlt hi, stops_some_iff, rejected_write_iff]
  · rw [hstop, chunkCall_read hrun hstage hlt hi, stops_some_iff, rejected_read_iff]
  · rw [hstop]
    constructor
    · rintro ⟨call, hcall, a, rest, hans, hrej⟩
      exact ⟨call, a, rest, hcall, hans, hrej⟩
    · rintro ⟨call, a, rest, hcall, hans, hrej⟩
      exact ⟨call, hcall, a, rest, hans, hrej⟩

end Sys2Proof.Machine
end

section
/-! SUPPORT. Host accesses place by place: registers, reserved offsets, buffer bytes and unsupported
accesses (20_memory.md R60, R61), and the registers' fields. -/

namespace Sys2Proof.Machine

/-! ### Places -/

theorem toNat_regOffset (r : Reg) : (BitVec.ofNat 18 (regOffset r)).toNat = regOffset r := by
  cases r <;> rfl

theorem toNat_bufBase_add (b : Buf) {o : Nat} (ho : o < 0x10000) :
    (BitVec.ofNat 18 (bufBase b + o)).toNat = bufBase b + o := by
  have hbase : bufBase b ≤ 0x30000 := by cases b <;> decide
  rw [BitVec.toNat_ofNat, Nat.mod_eq_of_lt]
  omega

theorem regOffset_aligned (r : Reg) : regOffset r % 4 = 0 ∧ regOffset r ≤ 0x054 := by
  cases r <;> decide

theorem eq_regOffset_of_regOfOffset {o : Nat} {r : Reg} (h : regOfOffset o = some r) :
    o = regOffset r := by
  unfold regOfOffset at h
  split at h <;> cases h <;> rfl

/-- Settles O21: the two tables are inverse to each other. -/
theorem registerMapIsExact : Obligations.RegisterMapIsExact :=
  ⟨fun r => ⟨regOfOffset_regOffset r, regOffset_aligned r⟩, fun _ _ => eq_regOffset_of_regOfOffset⟩

theorem regOfOffset_reserved {o : Nat} (h : 0x58 ≤ o) : regOfOffset o = none := by
  cases hr : regOfOffset o with
  | none => rfl
  | some r =>
    have ho := eq_regOffset_of_regOfOffset hr
    have hle := (regOffset_aligned r).2
    omega

/-- An access the block does not support: a register address with another width or alignment, a hole of
the map, or a buffer window with another width or beyond BUF_SIZE (20_memory.md R61). -/
def Unsupported (bufSize : Nat) (a : Addr) (n : Width) : Prop :=
  (a.toNat < 0x100 ∧ (n ≠ .word ∨ a.toNat % 4 ≠ 0)) ∨ (0x100 ≤ a.toNat ∧ a.toNat < 0x10000) ∨
    (0x10000 ≤ a.toNat ∧ (n ≠ .byte ∨ bufSize ≤ a.toNat % 0x10000))

theorem bufferPlace_bad {bufSize a : Nat} {b : Buf} {n : Width} (hbase : a - bufBase b = a % 0x10000)
    (h : n ≠ .byte ∨ bufSize ≤ a % 0x10000) : bufferPlace bufSize b a n = .bad := by
  unfold bufferPlace
  rw [hbase, if_neg]
  rintro ⟨hn, hlt⟩
  exact h.elim (· hn) (by omega)

theorem placeOf_bad {bufSize : Nat} {a : Addr} {n : Width} (h : Unsupported bufSize a n) :
    placeOf bufSize a n = .bad := by
  have hlt := a.isLt
  unfold placeOf
  rcases h with ⟨hreg, hn⟩ | ⟨hlo, hhi⟩ | ⟨hbuf, hn⟩
  · simp only [if_pos hreg]
    rw [if_neg]
    rintro ⟨hword, halign⟩
    exact hn.elim (· hword) (· halign)
  · simp only [if_neg (show ¬ a.toNat < 0x100 by omega), if_pos hhi]
  · simp only [if_neg (show ¬ a.toNat < 0x100 by omega), if_neg (show ¬ a.toNat < 0x10000 by omega)]
    split
    · exact bufferPlace_bad (by simp only [bufBase]; omega) hn
    · split
      · exact bufferPlace_bad (by simp only [bufBase]; omega) hn
      · exact bufferPlace_bad (by simp only [bufBase]; omega) hn

theorem placeOf_reserved {a : Addr} (bufSize : Nat) (hlt : a.toNat < 0x100) (halign : a.toNat % 4 = 0) :
    placeOf bufSize a .word = .reg a.toNat := by
  simp [placeOf, hlt, halign]

/-! ### Accesses by place -/

section Register
variable {a : Addr} {r : Reg} (ha : a.toNat = regOffset r) (s : State)
include ha

theorem hostRead_reg : hostRead a .word s =
    if s.running && regHidden r then s.answerFree (Config.freeWord s.draws)
    else s.answer (regValue s r) := by
  simp only [hostRead, placeOf_regOffset _ r a ha, regOfOffset_regOffset]

theorem hostWrite_reg (v : Word) : hostWrite a .word v s =
    if s.running && regProtected r then s.setSticky busyRejectBit else regWrite r v s := by
  simp only [hostWrite, placeOf_regOffset _ r a ha, regOfOffset_regOffset]

/-- Which registers a host reads in either phase (20_memory.md R70). -/
theorem hostRead_reg_visible (h : regHidden r = false) : hostRead a .word s = s.answer (regValue s r) := by
  rw [hostRead_reg ha, h, Bool.and_false, if_neg Bool.false_ne_true]

theorem hostWrite_reg_unprotected (h : regProtected r = false) (v : Word) :
    hostWrite a .word v s = regWrite r v s := by
  rw [hostWrite_reg ha, h, Bool.and_false, if_neg Bool.false_ne_true]

theorem hostWrite_reg_idle (h : s.engine = .idle) (v : Word) : hostWrite a .word v s = regWrite r v s := by
  rw [hostWrite_reg ha, (not_running_iff s).mpr h, Bool.false_and, if_neg Bool.false_ne_true]

theorem hostWrite_reg_busy (h : s.running = true) (hp : regProtected r = true) (v : Word) :
    hostWrite a .word v s = s.setSticky busyRejectBit := by
  rw [hostWrite_reg ha, h, hp, Bool.and_self, if_pos rfl]

end Register

theorem hostWrite_buffer_busy {a : Addr} {b : Buf} {o : Nat} {s : State} (ha : a.toNat = bufBase b + o)
    (ho : o < s.cfg.bufSize) (ho' : o < 0x10000) (h : s.running = true) (v : Word) :
    hostWrite a .byte v s = s.setSticky busyRejectBit := by
  simp [hostWrite, placeOf_buffer _ b o ho ho' a ha, h]

theorem hostRead_bad {a : Addr} {n : Width} {s : State} (h : Unsupported s.cfg.bufSize a n) :
    hostRead a n s = (s.setSticky badAccessBit).answer 0 := by
  simp only [hostRead, placeOf_bad h]

theorem hostWrite_bad {a : Addr} {n : Width} {s : State} (h : Unsupported s.cfg.bufSize a n) (v : Word) :
    hostWrite a n v s = s.setSticky badAccessBit := by
  simp only [hostWrite, placeOf_bad h]

theorem hasSticky_setSticky (s : State) {i : Nat} (hi : i < 19) : (s.setSticky i).hasSticky i = true := by
  have h : (s.setSticky i).hasSticky i = (s.hasSticky i || decide (i = i)) := getLsbD_or_bit _ _ _ hi
  simp [h]

/-! ### The lifecycle -/

/-- Settles O4: a write to OP of an idle block is `accept`, and OP reads 0. -/
theorem opWriteAcceptsOperation : Obligations.OpWriteAcceptsOperation := by
  refine ⟨fun s w hidle => ?_, fun s => ?_, rfl⟩
  · rw [hostWrite_reg_idle (r := .op) rfl s hidle w]
    refine ⟨rfl, rfl, rfl, rfl, fun r hr => ?_, fun b o => ?_, ⟨rfl, rfl, rfl⟩, rfl, rfl, rfl⟩
    · cases r
      case status => exact absurd (by decide) hr
      case flags => exact absurd (by decide) hr
      case chunks => exact absurd (by decide) hr
      all_goals rfl
    · rw [regWrite, accept_buffer]
  · rw [hostRead_reg_visible (r := .op) rfl s rfl]
    rfl

theorem engineTurn_of_decode {s : State} {c : Ctx} {i : Instr} (hrun : s.engine = .run c)
    (hw : decode c.word = .ok i) : engineTurn s = exec i s := by
  simp only [engineTurn, hrun, engineStep, hw]

/-- Settles O5: the engine's turn of a running operation. -/
theorem stepRunsDecodedOperation : Obligations.StepRunsDecodedOperation := by
  intro s c i hrun hw
  refine ⟨fun hs => ?_, fun rest hs => ?_⟩
  · simp only [step, nextTurn, hs]
    exact engineTurn_of_decode hrun hw
  · simp only [step, nextTurn, hs, takeTurn]
    exact engineTurn_of_decode (s := { s with schedule := rest }) hrun hw

theorem decode_encode (i : Instr) : decode (encode i) = .ok i := by
  cases i <;> rfl

theorem tableWord_encode (i : Instr) : tableWord 32 (encode i).toNat = encode i := by
  cases i <;> rfl

/-- Settles O6: a placed word is accepted with the engine's turn put first. -/
theorem fetchedWordRunsNext : Obligations.FetchedWordRunsNext := by
  intro s i
  refine ⟨?_, ?_⟩
  · have hlt : (encode i).toNat % 2 ^ 32 < 2 ^ 32 := Nat.mod_lt _ (by decide)
    simp only [decodeTableWord, if_pos hlt, tableWord_encode, decode_encode]
  · rw [State.withFetchWord, tableWord_encode]
    exact (stepRunsDecodedOperation (withAccepted (encode i) s) _ i rfl (decode_encode i)).2 s.schedule rfl

/-! ### STICKY -/

/-- The bits of a register above its field read 0. -/
theorem setWidth_and_reserved {w : Nat} (x : BitVec w) {m : Word} (hm : m.setWidth w = 0) :
    x.setWidth 32 &&& m = 0 := by
  apply BitVec.eq_of_getLsbD_eq
  intro i hi
  rw [BitVec.getLsbD_and, BitVec.getLsbD_setWidth]
  by_cases hw : i < w
  · have hbit := congrArg (·.getLsbD i) hm
    have hbit' : m.getLsbD i = false := by simpa [BitVec.getLsbD_setWidth, hw] using hbit
    simp [hbit']
  · simp [BitVec.getLsbD_of_ge x i (by omega)]

/-- Settles O24: every clause is the access rule of its place. -/
theorem stickyIsWriteOneToClear : Obligations.StickyIsWriteOneToClear := by
  refine ⟨flagsAdded_flag, fun _ _ => rfl, fun s r v hrun hr => ?_, fun s b o v hrun ho ho' => ?_,
    fun s a n v h => ?_, fun s v => ?_, fun s => ?_, rfl⟩
  · have hp : ∀ r ∈ [Reg.op, .config, .timeout, .txCmd, .txPlen, .xferLen, .guardW, .rxCount],
        regProtected r = true := by decide
    rw [hostWrite_reg_busy (toNat_regOffset r) s hrun (hp r hr)]
    exact hasSticky_setSticky s (by decide)
  · rw [hostWrite_buffer_busy (toNat_bufBase_add b ho') ho ho' hrun]
    exact hasSticky_setSticky s (by decide)
  · rw [hostRead_bad h, hostWrite_bad h]
    have hset := hasSticky_setSticky s (i := 18) (by decide)
    exact ⟨hset, hset⟩
  · rw [hostWrite_reg_unprotected (r := .sticky) rfl s rfl v]
    refine ⟨rfl, fun i hi => ?_⟩
    simp [regWrite, State.hasSticky, hi]
  · exact setWidth_and_reserved s.sticky rfl

/-! ### Fields of CONFIG -/

/-- A write to a protected register other than OP changes that register alone. -/
theorem regWrite_frame {r : Reg} (hp : regProtected r = true) (hop : r ≠ .op) (v : Word) (s : State) :
    RegsKeptBut [r] s (regWrite r v s) ∧ BytesKept s (regWrite r v s) := by
  refine ⟨fun r' hr' => ?_, fun b o => ?_⟩
  · -- seven registers r are left, and each writes a field that no other register's value reads
    have hne : r' ≠ r := by simpa using hr'
    cases r <;> simp [regProtected] at hp hop <;> cases r' <;> simp [regValue, regWrite] at hne ⊢
  · cases r <;> simp [regProtected] at hp hop <;> cases b <;> rfl

theorem configStored_bit (v : Word) {i : Nat} (hlo : 2 ≤ i) (hhi : i < 9) :
    (configStored v).getLsbD i = v.getLsbD i := by
  have hbit : (v.extractLsb' 0 9).getLsbD i = v.getLsbD i := by simp [hhi]
  have hmask : (0x1FC : BitVec 9).getLsbD i = true := by interval_cases i <;> rfl
  simp only [configStored]
  split
  · rw [BitVec.getLsbD_and, hmask, Bool.and_true, hbit]
  · exact hbit

/-- Settles O25: an idle block stores `configStored`, whose bits from 2 on are those written. -/
theorem configWriteStoresLegalMode : Obligations.ConfigWriteStoresLegalMode := by
  intro s v hidle
  rw [hostWrite_reg_idle (r := .config) rfl s hidle v]
  refine ⟨configStored_mode v, configStored_bit v (by decide) (by decide),
    configStored_bit v (by decide) (by decide), ?_, configStored_bit v (by decide) (by decide),
    setWidth_and_reserved _ rfl, regWrite_frame rfl (by decide) v s⟩
  · apply BitVec.eq_of_getLsbD_eq
    intro i hi
    have hbit := configStored_bit v (i := 4 + i) (by omega) (by omega)
    simpa [State.trace, regWrite, hi] using hbit

/-! ### Reserved bits and offsets -/

theorem status_word_reserved (t : Status) : t.word &&& 0xFF0000FC = 0 := by
  have h : (0#8 ++ t.err ++ t.lastOp ++ 0#6 ++ BitVec.ofBool t.done ++ BitVec.ofBool t.busy) &&&
      (0xFF#8 ++ 0#8 ++ 0#8 ++ 0x3F#6 ++ 0#1 ++ 0#1) = 0 := by
    simp only [BitVec.and_append, BitVec.and_zero, BitVec.zero_and]
    rfl
  exact h

theorem guardOut_reserved (r : Byte) (w : BitVec 16) :
    ((0 : BitVec 8) ++ r ++ w : Word) &&& 0xFF000000 = 0 := by
  have h : (0#8 ++ r ++ w) &&& (0xFF#8 ++ 0#8 ++ 0#16) = 0 := by
    simp only [BitVec.and_append, BitVec.and_zero, BitVec.zero_and]
    rfl
  exact h

/-- A write to a field of w bits ignores the bits of v above it. -/
theorem setWidth_and_field {w : Nat} (v : Word) {m : Word} (hm : m.setWidth w = BitVec.allOnes w) :
    (v &&& m).setWidth w = v.setWidth w := by
  rw [BitVec.setWidth_and, hm, BitVec.and_allOnes]

theorem configStored_and_field (v : Word) : configStored (v &&& 0x000001FF) = configStored v := by
  have hfield : (v &&& 0x000001FF).extractLsb' 0 9 = v.extractLsb' 0 9 := by
    rw [BitVec.extractLsb'_and]
    exact BitVec.and_allOnes
  simp only [configStored, hfield]

/-- Settles O26: reserved offsets name no register, and every register's value and write have its
fields alone. -/
theorem reservedStateReadsZero : Obligations.ReservedStateReadsZero := by
  refine ⟨fun s a v hlt hge halign => ?_, fun s => ?_, fun s v => ?_⟩
  · have hplace := placeOf_reserved s.cfg.bufSize hlt halign
    have hnone := regOfOffset_reserved hge
    exact ⟨by simp only [hostRead, hplace, hnone, State.answer], by simp only [hostWrite, hplace, hnone]⟩
  · exact ⟨status_word_reserved _, setWidth_and_reserved _ rfl, setWidth_and_reserved _ rfl,
      setWidth_and_reserved _ rfl, setWidth_and_reserved _ rfl, setWidth_and_reserved _ rfl,
      setWidth_and_reserved _ rfl, setWidth_and_reserved _ rfl, setWidth_and_reserved _ rfl,
      setWidth_and_reserved _ rfl, setWidth_and_reserved _ rfl, setWidth_and_reserved _ rfl,
      guardOut_reserved _ _⟩
  · simp only [regWrite]
    rw [configStored_and_field, setWidth_and_field v (w := 19) rfl, setWidth_and_field v (w := 16) rfl,
      setWidth_and_field v (w := 17) rfl]
    exact ⟨rfl, rfl, rfl, rfl, rfl, rfl⟩

/-! ### Operand and parameter registers -/

/-- A field of w bits reads back as the value written, masked to it. -/
theorem setWidth_setWidth_eq_and {w : Nat} (v : Word) {m : Word}
    (hm : m = (BitVec.allOnes w).setWidth 32) : (v.setWidth w).setWidth 32 = v &&& m := by
  subst hm
  apply BitVec.eq_of_getLsbD_eq
  intro i hi
  simp [BitVec.getLsbD_setWidth, hi, Bool.and_comm]

/-- Settles O27: an idle block stores the field, and nothing else. -/
theorem operandRegistersReadBack : Obligations.OperandRegistersReadBack := by
  intro s v hidle r mask hmem
  rw [hostWrite_reg_idle (toNat_regOffset r) s hidle v]
  simp only [List.mem_cons, Prod.mk.injEq, List.not_mem_nil, or_false] at hmem
  rcases hmem with ⟨rfl, rfl⟩ | ⟨rfl, rfl⟩ | ⟨rfl, rfl⟩ | ⟨rfl, rfl⟩ | ⟨rfl, rfl⟩ | ⟨rfl, rfl⟩
  · exact ⟨BitVec.and_allOnes.symm, regWrite_frame rfl (by decide) v s⟩
  · exact ⟨BitVec.and_allOnes.symm, regWrite_frame rfl (by decide) v s⟩
  · exact ⟨setWidth_setWidth_eq_and v rfl, regWrite_frame rfl (by decide) v s⟩
  · exact ⟨setWidth_setWidth_eq_and v rfl, regWrite_frame rfl (by decide) v s⟩
  · exact ⟨setWidth_setWidth_eq_and v rfl, regWrite_frame rfl (by decide) v s⟩
  · exact ⟨setWidth_setWidth_eq_and v rfl, regWrite_frame rfl (by decide) v s⟩

/-- Settles O28: PARAM0 and PARAM1 are visible in either phase and no write changes them. -/
theorem parameterRegistersAreHardwired : Obligations.ParameterRegistersAreHardwired := by
  intro s v
  refine ⟨?_, ?_, hostWrite_reg_unprotected (r := .param0) rfl s rfl v,
    hostWrite_reg_unprotected (r := .param1) rfl s rfl v⟩
  · rw [hostRead_reg_visible (r := .param0) rfl s rfl]
    rfl
  · rw [hostRead_reg_visible (r := .param1) rfl s rfl]
    rfl

end Sys2Proof.Machine
end

section
/-! SUPPORT. What a host access does in each phase (20_memory.md R61, R68, R70): the frame of a buffer write,
the registers that ignore a write, hidden reads, and why a repeated access does nothing new. -/

namespace Sys2Proof.Machine

/-! ### Writing a buffer -/

@[simp] theorem setBuffer_engine (s : State) (b : Buf) (m : Memory) :
    (s.setBuffer b m).engine = s.engine := by
  cases b <;> rfl

theorem regsKept_setBuffer (s : State) (b : Buf) (m : Memory) : RegsKeptBut [] s (s.setBuffer b m) := by
  intro r _
  cases b <;> rfl

theorem surroundingsKept_setBuffer (s : State) (b : Buf) (m : Memory) :
    SurroundingsKept s (s.setBuffer b m) := by
  cases b <;> exact ⟨rfl, rfl, rfl⟩

theorem noLinkCall_setBuffer (s : State) (b : Buf) (m : Memory) : NoLinkCall s (s.setBuffer b m) := by
  cases b <;> exact ⟨rfl, rfl, rfl⟩

theorem bytesKeptBut_setBuffer_write (s : State) (b : Buf) (o : Nat) (bs : List Byte) :
    BytesKeptBut b o bs.length s (s.setBuffer b ((s.buffer b).write o bs)) := by
  intro b' o' hout
  by_cases hb : b' = b
  · subst hb
    rw [setBuffer_buffer_self]
    exact read_write_outside _ o bs o' (by simp only [true_and] at hout; omega)
  · rw [setBuffer_buffer_ne s _ hb]

/-- Equal as data and not only read by read: a write leaves no cells in its block but its own. -/
theorem write_write_same (m : Memory) (o : Nat) (bs : List Byte) :
    (m.write o bs).write o bs = m.write o bs := by
  have hblock (p : Host.Cell → Bool) (hp : ∀ c, o ≤ c.1 ∧ c.1 < o + bs.length → p c = false) :
      ((numbered o bs).filter m.fill.lists).filter p = [] :=
    List.filter_eq_nil_iff.mpr fun c hc => by
      simp [hp c (mem_numbered (List.mem_of_mem_filter hc))]
  have hlow := hblock (fun c => decide (c.1 < o)) (by simp; omega)
  have hhigh := hblock (fun c => decide (o + bs.length ≤ c.1)) (by simp)
  have hnone : ∀ c : Host.Cell, ¬(c.1 < o ∧ o + bs.length ≤ c.1) := by omega
  have hboth : m.cells.filter (fun c => decide (c.1 < o) && decide (o + bs.length ≤ c.1)) = [] :=
    List.filter_eq_nil_iff.mpr fun c _ => by simpa using hnone c
  have hboth' : m.cells.filter (fun c => decide (o + bs.length ≤ c.1) && decide (c.1 < o)) = [] :=
    (List.filter_congr fun c _ => Bool.and_comm _ _).trans hboth
  simp only [Memory.write, List.filter_append, hlow, hhigh, List.filter_filter, hboth, hboth',
    Bool.and_self, List.append_nil, List.nil_append]

theorem setBuffer_setBuffer (s : State) (b : Buf) (m m' : Memory) :
    (s.setBuffer b m).setBuffer b m' = s.setBuffer b m' := by
  cases b <;> rfl

/-! ### Accesses by place and phase -/

theorem hostRead_reg_hidden {a : Addr} {r : Reg} {s : State} (ha : a.toNat = regOffset r)
    (hrun : s.running = true) (h : regHidden r = true) :
    hostRead a .word s = s.answerFree (Config.freeWord s.draws) := by
  rw [hostRead_reg ha, hrun, h, Bool.and_self, if_pos rfl]

theorem hostRead_reg_idle {a : Addr} {r : Reg} {s : State} (ha : a.toNat = regOffset r)
    (hidle : s.engine = .idle) : hostRead a .word s = s.answer (regValue s r) := by
  rw [hostRead_reg ha, (not_running_iff s).mpr hidle, Bool.false_and, if_neg Bool.false_ne_true]

section Buffer
variable {a : Addr} {b : Buf} {o : Nat} {s : State} (ha : a.toNat = bufBase b + o)
  (ho : o < s.cfg.bufSize) (ho' : o < 0x10000)
include ha ho ho'

theorem hostRead_buffer : hostRead a .byte s =
    if s.running then s.answerFree ((Config.freeByte s.draws).setWidth 32)
    else s.answer (((s.buffer b).read o).setWidth 32) := by
  simp only [hostRead, placeOf_buffer _ b o ho ho' a ha]

theorem hostRead_buffer_busy (hrun : s.running = true) :
    hostRead a .byte s = s.answerFree ((Config.freeByte s.draws).setWidth 32) := by
  rw [hostRead_buffer ha ho ho', if_pos hrun]

theorem hostRead_buffer_idle (hidle : s.engine = .idle) :
    hostRead a .byte s = s.answer (((s.buffer b).read o).setWidth 32) := by
  rw [hostRead_buffer ha ho ho', (not_running_iff s).mpr hidle, if_neg Bool.false_ne_true]

theorem hostWrite_buffer_idle (hidle : s.engine = .idle) (v : Word) :
    hostWrite a .byte v s = s.setBuffer b ((s.buffer b).write o [v.extractLsb' 0 8]) := by
  simp only [hostWrite, placeOf_buffer _ b o ho ho' a ha, (not_running_iff s).mpr hidle,
    if_neg Bool.false_ne_true]

end Buffer

section Reserved
variable {a : Addr} (hlt : a.toNat < 0x100) (hge : 0x58 ≤ a.toNat) (halign : a.toNat % 4 = 0)
include hlt hge halign

theorem hostRead_reserved (s : State) : hostRead a .word s = s.answer 0 :=
  (reservedStateReadsZero.1 s a 0 hlt hge halign).1

theorem hostWrite_reserved (v : Word) (s : State) : hostWrite a .word v s = s :=
  (reservedStateReadsZero.1 s a v hlt hge halign).2

end Reserved

/-- The read-only registers of R23 are those that are neither protected nor STICKY. -/
theorem readOnly_iff (r : Reg) :
    r ∈ [Reg.status, .flags, .resultCount, .txWireLen, .rxLen, .rxCmd, .rxCrc, .crcResult, .guardOut,
      .linkErr, .chunks, .param0, .param1] ↔ regProtected r = false ∧ r ≠ .sticky := by
  cases r <;> decide

theorem regWrite_readOnly {r : Reg} (h : regProtected r = false ∧ r ≠ .sticky) (v : Word) (s : State) :
    regWrite r v s = s := by
  obtain ⟨hp, hs⟩ := h
  cases r
  case sticky => exact absurd rfl hs
  case op | config | timeout | txCmd | txPlen | xferLen | guardW | rxCount => cases hp
  all_goals rfl

theorem hostWrite_readOnly {a : Addr} {r : Reg} (ha : a.toNat = regOffset r)
    (h : regProtected r = false ∧ r ≠ .sticky) (v : Word) (s : State) : hostWrite a .word v s = s := by
  rw [hostWrite_reg_unprotected ha s h.1, regWrite_readOnly h]

/-- Settles O20: each clause is the access rule of its place, and a byte written by an idle block is a
write of that buffer alone. -/
theorem hostAccessFollowsMap : Obligations.HostAccessFollowsMap := by
  intro s a n v
  refine ⟨fun hidle r ha => ⟨hostRead_reg_idle ha hidle, hostWrite_reg_idle ha s hidle v⟩,
    fun r hr => ?_, fun hidle b o ho ho' ha => ?_, fun h => ⟨hostRead_bad h, hostWrite_bad h v⟩⟩
  · have hro := (readOnly_iff r).mp hr
    exact ⟨regWrite_readOnly hro v s, fun ha => hostWrite_readOnly ha hro v s⟩
  · rw [hostWrite_buffer_idle ha ho ho' hidle v]
    refine ⟨hostRead_buffer_idle ha ho ho' hidle, ?_, bytesKeptBut_setBuffer_write s b o [_],
      regsKept_setBuffer s b _, ?_, surroundingsKept_setBuffer s b _, noLinkCall_setBuffer s b _⟩
    · rw [setBuffer_buffer_self]
      exact read_write_inside _ o [v.extractLsb' 0 8] 0 Nat.zero_lt_one
    · rw [setBuffer_engine]
      exact hidle

/-- Settles O22: a running block answers every access by the rule of its place, and the lists of R70 are
those of `regProtected` and `regHidden`. -/
theorem busyBlockIsProtected : Obligations.BusyBlockIsProtected := by
  intro s hrun
  refine ⟨fun r v hr => ?_,
    fun b o v ho ho' => hostWrite_buffer_busy (toNat_bufBase_add b ho') ho ho' hrun v,
    hostWrite_reg_unprotected (r := .sticky) rfl s rfl,
    fun r v hr => hostWrite_readOnly (toNat_regOffset r) ((readOnly_iff r).mp hr) v s,
    fun r hr => ?_, fun r hr => ?_,
    fun b o ho ho' => ⟨_, hostRead_buffer_busy (toNat_bufBase_add b ho') ho ho' hrun⟩,
    fun a v hlt hge halign =>
      ⟨hostRead_reserved hlt hge halign s, hostWrite_reserved hlt hge halign v s⟩⟩
  · have hp : ∀ r ∈ [Reg.op, .config, .timeout, .txCmd, .txPlen, .xferLen, .guardW, .rxCount],
        regProtected r = true := by decide
    exact hostWrite_reg_busy (toNat_regOffset r) s hrun (hp r hr) v
  · have hv : ∀ r ∈ [Reg.status, .sticky, .config, .timeout, .txCmd, .txPlen, .xferLen, .guardW, .param0,
        .param1], regHidden r = false := by decide
    exact hostRead_reg_visible (toNat_regOffset r) s (hv r hr)
  · have hh : ∀ r ∈ [Reg.flags, .rxCount, .resultCount, .txWireLen, .rxLen, .rxCmd, .rxCrc, .crcResult,
        .guardOut, .linkErr, .chunks], regHidden r = true := by decide
    exact ⟨_, hostRead_reg_hidden (toNat_regOffset r) hrun (hh r hr)⟩

/-! ### Every access has a place -/

theorem exists_reg_of_aligned {o : Nat} (hlt : o < 0x58) (halign : o % 4 = 0) : ∃ r, o = regOffset r := by
  have hsome : ∀ o < 0x58, o % 4 = 0 → (regOfOffset o).isSome = true := by decide
  obtain ⟨r, hr⟩ := Option.isSome_iff_exists.mp (hsome o hlt halign)
  exact ⟨r, eq_regOffset_of_regOfOffset hr⟩

theorem exists_buffer_of_window {a : Addr} (h : 0x10000 ≤ a.toNat) :
    ∃ b, a.toNat = bufBase b + a.toNat % 0x10000 := by
  have hlt := a.isLt
  have hwindow : a.toNat / 0x10000 = 1 ∨ a.toNat / 0x10000 = 2 ∨ a.toNat / 0x10000 = 3 := by omega
  rcases hwindow with hw | hw | hw
  · exact ⟨.txbuf, by simp only [bufBase]; omega⟩
  · exact ⟨.rxbuf, by simp only [bufBase]; omega⟩
  · exact ⟨.rxpkt, by simp only [bufBase]; omega⟩

/-- The map of R60: an access is unsupported, a register's, a reserved offset's or a buffer byte's. -/
theorem access_cases (bufSize : Nat) (a : Addr) (n : Width) :
    Unsupported bufSize a n ∨ (∃ r, n = .word ∧ a.toNat = regOffset r) ∨
    (n = .word ∧ a.toNat < 0x100 ∧ 0x58 ≤ a.toNat ∧ a.toNat % 4 = 0) ∨
    (∃ b o, n = .byte ∧ a.toNat = bufBase b + o ∧ o < bufSize ∧ o < 0x10000) := by
  by_cases hbad : Unsupported bufSize a n
  · exact .inl hbad
  · simp only [Unsupported, not_or, not_and, ne_eq, not_not, not_lt, not_le] at hbad
    obtain ⟨hregion, hhole, hwindow⟩ := hbad
    by_cases hlt : a.toNat < 0x100
    · obtain ⟨hword, halign⟩ := hregion hlt
      by_cases hreg : a.toNat < 0x58
      · obtain ⟨r, hr⟩ := exists_reg_of_aligned hreg halign
        exact .inr (.inl ⟨r, hword, hr⟩)
      · exact .inr (.inr (.inl ⟨hword, hlt, by omega, halign⟩))
    · have hge : 0x10000 ≤ a.toNat := hhole (by omega)
      obtain ⟨hbyte, hsize⟩ := hwindow hge
      obtain ⟨b, hb⟩ := exists_buffer_of_window hge
      exact .inr (.inr (.inr ⟨b, _, hbyte, hb, hsize, Nat.mod_lt _ (by decide)⟩))

/-! ### Repeated reads -/

theorem hostRead_sticky (a : Addr) (n : Width) (s : State) : (hostRead a n s).sticky =
    if placeOf s.cfg.bufSize a n = .bad then s.sticky ||| 0x40000 else s.sticky := by
  rcases access_cases s.cfg.bufSize a n with hbad | ⟨r, rfl, ha⟩ | ⟨rfl, hlt, hge, halign⟩ |
    ⟨b, o, rfl, ha, ho, ho'⟩
  · rw [hostRead_bad hbad, if_pos (placeOf_bad hbad)]
    rfl
  · rw [placeOf_regOffset _ r a ha, if_neg nofun, hostRead_reg ha]
    split <;> rfl
  · rw [placeOf_reserved _ hlt halign, if_neg nofun, hostRead_reserved hlt hge halign]
    rfl
  · rw [placeOf_buffer _ b o ho ho' a ha, if_neg nofun, hostRead_buffer ha ho ho']
    split <;> rfl

/-- The value an idle block returns is one of its registers or bytes, which the read leaves, or 0. -/
theorem hostRead_hostRead_readData (a : Addr) (n : Width) {s : State} (hidle : s.engine = .idle) :
    (hostRead a n (hostRead a n s)).readData = (hostRead a n s).readData := by
  rcases access_cases s.cfg.bufSize a n with hbad | ⟨r, rfl, ha⟩ | ⟨rfl, hlt, hge, halign⟩ |
    ⟨b, o, rfl, ha, ho, ho'⟩
  · rw [hostRead_bad hbad, hostRead_bad (s := (s.setSticky badAccessBit).answer 0) hbad]
    rfl
  · rw [hostRead_reg_idle ha hidle, hostRead_reg_idle (s := s.answer _) ha hidle]
    rfl
  · rw [hostRead_reserved hlt hge halign, hostRead_reserved hlt hge halign]
    rfl
  · rw [hostRead_buffer_idle ha ho ho' hidle,
      hostRead_buffer_idle (s := s.answer _) ha ho ho' hidle, answer_buffer]
    rfl

/-! ### Repeated writes -/

theorem setSticky_setSticky (s : State) (i : Nat) : (s.setSticky i).setSticky i = s.setSticky i := by
  simp only [State.setSticky, BitVec.or_assoc, BitVec.or_self]

theorem regWrite_running {r : Reg} (hop : r ≠ .op) (v : Word) (s : State) :
    (regWrite r v s).running = s.running := by
  cases r
  case op => exact absurd rfl hop
  all_goals rfl

theorem regWrite_regWrite {r : Reg} (hop : r ≠ .op) (v : Word) (s : State) :
    regWrite r v (regWrite r v s) = regWrite r v s := by
  cases r
  case op => exact absurd rfl hop
  case sticky => simp only [regWrite, BitVec.and_assoc, BitVec.and_self]
  all_goals rfl

/-- A repeated write finds the phase it found before, and its update does nothing new. -/
theorem hostWrite_hostWrite {a : Addr} (hop : a.toNat ≠ regOffset .op) (n : Width) (v : Word) (s : State) :
    hostWrite a n v (hostWrite a n v s) = hostWrite a n v s := by
  rcases access_cases s.cfg.bufSize a n with hbad | ⟨r, rfl, ha⟩ | ⟨rfl, hlt, hge, halign⟩ |
    ⟨b, o, rfl, ha, ho, ho'⟩
  · rw [hostWrite_bad hbad, hostWrite_bad (s := s.setSticky _) hbad, setSticky_setSticky]
  · have hne : r ≠ .op := fun h => hop (h ▸ ha)
    rw [hostWrite_reg ha s]
    split
    · rw [hostWrite_reg ha, setSticky_running, if_pos ‹_›, setSticky_setSticky]
    · rw [hostWrite_reg ha, regWrite_running hne, if_neg ‹_›, regWrite_regWrite hne]
  · rw [hostWrite_reserved hlt hge halign, hostWrite_reserved hlt hge halign]
  · cases hrun : s.running with
    | true =>
      rw [hostWrite_buffer_busy ha ho ho' hrun,
        hostWrite_buffer_busy (s := s.setSticky _) ha ho ho' hrun, setSticky_setSticky]
    | false =>
      have hidle := (not_running_iff s).mp hrun
      rw [hostWrite_buffer_idle ha ho ho' hidle,
        hostWrite_buffer_idle ha (by rw [setBuffer_cfg]; exact ho) ho'
          (by rw [setBuffer_engine]; exact hidle),
        setBuffer_buffer_self, write_write_same, setBuffer_setBuffer]

/-- Settles O23: a read changes its record, the draws and BAD_ACCESS at most; a write other than to OP
repeats without effect. -/
theorem hostAccessesAreIdempotent : Obligations.HostAccessesAreIdempotent := by
  intro s a n v
  refine ⟨?_, fun hop _ => hostWrite_hostWrite hop n v s⟩
  rintro t rfl
  have hsticky := hostRead_sticky a n s
  have hagain := hostRead_hostRead_readData a n (s := s)
  obtain ⟨st, rd, d, ht⟩ := hostRead_frame a n s
  rw [ht] at hsticky hagain ⊢
  refine ⟨rfl, fun r hr => ?_, fun b o => ?_, rfl, rfl, rfl, rfl, hsticky, hagain⟩
  · cases r
    case sticky => exact absurd (List.mem_singleton_self _) hr
    all_goals rfl
  · cases b <;> rfl

end Sys2Proof.Machine
end

section
/-! SUPPORT. The operation word (30_encoding.md R80-R82): decoding and encoding are inverse, the words that
decode are those that are not reserved, and a reserved word ends with ERR ILLEGAL. -/

namespace Sys2Proof.Machine

/-! ### The fields of a word -/

theorem mbzOf_append_opcOf (w : Word) : mbzOf w ++ opcOf w = w :=
  (BitVec.extractLsb'_append_extractLsb'_eq_extractLsb' rfl).trans BitVec.extractLsb'_eq_self

theorem mbzOf_toNat (w : Word) : (mbzOf w).toNat = w.toNat / 256 := by
  have hlt : w.toNat / 256 < 2 ^ 24 := by have := w.isLt; omega
  rw [mbzOf, BitVec.extractLsb'_toNat, Nat.shiftRight_eq_div_pow, Nat.mod_eq_of_lt hlt]

theorem opcOf_toNat (w : Word) : (opcOf w).toNat = w.toNat % 256 := by
  rw [opcOf, BitVec.extractLsb'_toNat, Nat.shiftRight_zero]

theorem opWordLegal_iff (w : Word) : OpWordLegal w ↔ mbzOf w = 0 ∧ (opcOf w).toNat ≤ 9 := by
  rw [OpWordLegal, ← mbzOf_toNat, ← opcOf_toNat, BitVec.toNat_eq]
  rfl

/-! ### The opcode map -/

theorem opcodeMap_eq_ok {n : Nat} {i : Instr} (h : opcodeMap n = .ok i) : n = i.opc.toNat := by
  unfold opcodeMap at h
  split at h <;> cases h <;> rfl

theorem opcodeMap_ok_iff (n : Nat) : (∃ i, opcodeMap n = .ok i) ↔ n ≤ 9 := by
  refine ⟨fun ⟨i, hi⟩ => ?_, fun hn => ?_⟩
  · rw [opcodeMap_eq_ok hi]
    cases i <;> decide
  · interval_cases n <;> exact ⟨_, rfl⟩

/-! ### The decoder -/

theorem decode_of_mbz {w : Word} (h : mbzOf w = 0) : decode w = opcodeMap (opcOf w).toNat := if_pos h

theorem decode_of_mbz_ne {w : Word} (h : mbzOf w ≠ 0) : decode w = .error .mbzSet := if_neg h

theorem mbzOf_of_decode {w : Word} {i : Instr} (h : decode w = .ok i) : mbzOf w = 0 := by
  by_contra hmbz
  rw [decode_of_mbz_ne hmbz] at h
  cases h

/-- The fields of a word that decodes are those of its operation's word. -/
theorem eq_encode_of_decode {w : Word} {i : Instr} (h : decode w = .ok i) : w = encode i := by
  have hmbz := mbzOf_of_decode h
  have hopc : opcOf w = i.opc := BitVec.eq_of_toNat_eq (opcodeMap_eq_ok (decode_of_mbz hmbz ▸ h))
  rw [← mbzOf_append_opcOf w, hmbz, hopc, encode]

theorem decode_eq_ok_iff (w : Word) (i : Instr) : decode w = .ok i ↔ w = encode i :=
  ⟨eq_encode_of_decode, fun h => h ▸ decode_encode i⟩

theorem opWordLegal_iff_decode (w : Word) : OpWordLegal w ↔ ∃ i, decode w = .ok i := by
  rw [opWordLegal_iff]
  constructor
  · rintro ⟨hmbz, hopc⟩
    rw [decode_of_mbz hmbz]
    exact (opcodeMap_ok_iff _).mpr hopc
  · rintro ⟨i, hi⟩
    have hmbz := mbzOf_of_decode hi
    exact ⟨hmbz, (opcodeMap_ok_iff _).mp ⟨i, decode_of_mbz hmbz ▸ hi⟩⟩

theorem exists_decode_error {w : Word} (h : ¬ OpWordLegal w) : ∃ e, decode w = .error e := by
  cases hw : decode w with
  | ok i => exact absurd ((opWordLegal_iff_decode w).mpr ⟨i, hw⟩) h
  | error e => exact ⟨e, rfl⟩

/-- Settles O1: ten operations' words, and three words that the decoder's branches reject. -/
theorem operationWordsDecodeByTable : Obligations.OperationWordsDecodeByTable :=
  ⟨decode_encode .nop, decode_encode .crc, decode_encode .swap, decode_encode .encode,
    decode_encode .decode, decode_encode .bulkWrite, decode_encode .bulkRead, decode_encode .send,
    decode_encode .recv, decode_encode .guard, decode_of_mbz rfl, decode_of_mbz rfl,
    decode_of_mbz_ne (by decide)⟩

/-- Settles O2: the legal words are those that decode, and each of these is an operation's word. -/
theorem decodeInvertsEncode : Obligations.DecodeInvertsEncode :=
  ⟨decode_eq_ok_iff, fun w => (opWordLegal_iff_decode w).trans (exists_congr (decode_eq_ok_iff w))⟩

/-! ### Reserved words -/

theorem engineTurn_of_reserved {s : State} {c : Ctx} {e : DecodeError} (hrun : s.engine = .run c)
    (hw : decode c.word = .error e) : engineTurn s = .next (illegalOp s) := by
  simp only [engineTurn, hrun, engineStep, hw]

theorem flagsAdded_illegalOp (s : State) : FlagsAdded [.illegalOp] s (illegalOp s) :=
  flagsAdded_congr (flagsAdded_flag s .illegalOp) rfl rfl rfl rfl

theorem regsKept_illegalOp (s : State) : RegsKeptBut [.status, .flags, .sticky] s (illegalOp s) := by
  intro r hr
  cases r
  case status | flags | sticky => exact absurd (by decide) hr
  all_goals rfl

theorem bytesKept_illegalOp (s : State) : BytesKept s (illegalOp s) := by
  intro b o
  cases b <;> rfl

theorem regsKeptBut_mono {rs rs' : List Reg} {s t : State} (hsub : rs ⊆ rs') (h : RegsKeptBut rs s t) :
    RegsKeptBut rs' s t := fun r hr => h r fun hmem => hr (hsub hmem)

/-- Settles O3: the accept of any word, then `illegalOp` of the accepted state. -/
theorem reservedWordEndsIllegal : Obligations.ReservedWordEndsIllegal := by
  intro s w hidle hreserved
  obtain ⟨e, hw⟩ := exists_decode_error hreserved
  obtain ⟨hrun, hstatus, hflags, hchunks, hregs, hbytes, hcalls, hkept⟩ :=
    opWriteAcceptsOperation.1 s w hidle
  generalize hostWrite 0x00000 .word w s = u at *
  have hregs' : RegsKeptBut [.status, .flags, .sticky, .chunks] s (illegalOp u) :=
    regsKeptBut_trans (regsKeptBut_mono (by decide) hregs)
      (regsKeptBut_mono (by decide) (regsKept_illegalOp u))
  refine ⟨running_of_run hrun, illegalOp u, engineTurn_of_reserved hrun hw, rfl, ?_, ?_,
    flagsAdded_illegalOp u, hregs', fun b o => (bytesKept_illegalOp u b o).trans (hbytes b o), hcalls,
    surroundingsKept_trans hkept (surroundingsKept_illegalOp u), hchunks⟩
  · simp only [illegalOp, raise_status, flag_status, hstatus, ErrCode.code]
  · simp only [illegalOp, raise_flags, flag_flags, hflags]
    rfl

end Sys2Proof.Machine
end

section
/-! SUPPORT. The packet image that ENCODE leaves in TXBUF (30_encoding.md R85, 40_packet_codec.md R103) and
its first bytes on the wire (30_encoding.md R89). -/

namespace Sys2Proof.Machine

/-! ### The pair swap -/

theorem pairSwap_append (xs ys : List Byte) (h : xs.length % 2 = 0) :
    pairSwap (xs ++ ys) = pairSwap xs ++ pairSwap ys := by
  induction xs using pairSwap.induct with
  | case1 => rfl
  | case2 a => cases h
  | case3 a b rest ih =>
    simp only [List.length_cons] at h
    simp only [List.cons_append, pairSwap, ih (by omega)]

/-- An even prefix of a wire image is the wire image of that prefix. -/
theorem wireImage_take (s : State) {k n : Nat} (hk : k % 2 = 0) (hkn : k ≤ n) :
    (wireImage s n).take k = wireImage s k := by
  obtain ⟨m, rfl⟩ := Nat.exists_eq_add_of_le hkn
  rw [wireImage, bytes_add, pairSwap_append _ _ (by rwa [bytes_length])]
  exact List.take_left' (wireImage_length s k)

/-! ### Building the image -/

section Header
variable (m : Memory) (len : BitVec 16) (cmd : Word) (n : Nat)

/-- The bytes the packet's CRC is taken over: `cmd` as written, and the payload in place. -/
theorem bytes_crcInput : ((m.write 0 (be16 len)).write 4 (be32 cmd)).bytes 4 (4 + n) =
    be32 cmd ++ m.bytes 8 n := by
  rw [bytes_add]
  congr 1
  · exact bytes_write_same _ 4 (be32 cmd)
  · rw [bytes_write_outside _ _ _ _ _ (by simp), bytes_write_outside _ _ _ _ _ (by simp)]

theorem bytes_header (crc : BitVec 16) :
    (((m.write 0 (be16 len)).write 4 (be32 cmd)).write 2 (be16 crc)).bytes 0 (8 + n) =
      be16 len ++ be16 crc ++ be32 cmd ++ m.bytes 8 n := by
  rw [show 8 + n = 2 + 2 + (4 + n) by omega, bytes_add, bytes_add, List.append_assoc _ (be32 cmd)]
  congr 1
  · congr 1
    · rw [bytes_write_outside _ _ _ _ _ (by simp), bytes_write_outside _ _ _ _ _ (by simp)]
      exact bytes_write_same _ 0 (be16 len)
    · exact bytes_write_same _ 2 (be16 crc)
  · rw [bytes_write_outside _ _ _ _ _ (by simp)]
    exact bytes_crcInput m len cmd n

end Header

/-- R103 builds the image of R85; the pad lies beyond it. -/
theorem encodeImage_bytes {s : State} (h8 : s.cfg.hdrLen = 8) :
    (encodeImage s).txbuf.bytes 0 s.packetLen =
      packetImage s.cfg s.txCmd (s.txbuf.bytes 8 s.payloadLen) := by
  have hL : s.packetLen = 8 + s.payloadLen := by rw [State.packetLen, h8]
  have hcrc : s.packetLen - 4 = 4 + s.payloadLen := by omega
  have hpad (m : Memory) : (if s.packetLen % 2 = 1 then m.write s.packetLen [s.cfg.padValue]
      else m).bytes 0 s.packetLen = m.bytes 0 s.packetLen := by
    split
    · exact bytes_write_outside _ _ _ _ _ (.inl (Nat.zero_add _).le)
    · rfl
  simp only [encodeImage, hpad, hcrc, bytes_crcInput]
  rw [hL, bytes_header, packetImage, bytes_length, h8]

/-! ### The header on the wire -/

theorem encodeImage_header {s : State} (h8 : s.cfg.hdrLen = 8) :
    (encodeImage s).txbuf.bytes 0 8 = be16 (BitVec.ofNat 16 (8 + s.payloadLen)) ++
      be16 (crc16 s.cfg (be32 s.txCmd ++ s.txbuf.bytes 8 s.payloadLen)) ++ be32 s.txCmd := by
  have himage := encodeImage_bytes h8
  rw [State.packetLen, h8, packetImage, bytes_length, h8, bytes_add] at himage
  exact (List.append_inj himage (by simp)).1

theorem byteAt_take {bs : List Byte} {i n : Nat} (h : i < n) : byteAt (bs.take n) i = byteAt bs i := by
  simp [byteAt, h]

/-- A 16-bit value from its bytes, low byte first. -/
theorem toNat_eq_bytes (v : BitVec 16) :
    (v.extractLsb' 0 8).toNat + 256 * (v.extractLsb' 8 8).toNat = v.toNat := by
  have hlt := v.isLt
  simp only [BitVec.extractLsb'_toNat, Nat.shiftRight_eq_div_pow]
  omega

/-- Settles O37: the wire image's first eight bytes are the swapped header, and its first two the length. -/
theorem headerOnTheWire : Obligations.HeaderOnTheWire := by
  intro s t hcfg hP hstep l crc hl hcrc
  have h8 : s.cfg.hdrLen = 8 := hcfg.2.1
  have hlen : l.toNat = 8 + s.payloadLen := by
    obtain ⟨⟨hmax, -⟩, -, hpacket, -⟩ := hcfg
    rw [hl, BitVec.toNat_ofNat]
    omega
  have hwire : (wireImage t (roundEven (8 + s.payloadLen))).take 8 =
      pairSwap (be16 l ++ be16 crc ++ be32 s.txCmd) := by
    rw [wireImage_take t rfl ((Nat.le_add_right 8 _).trans (le_roundEven _)), wireImage]
    rcases execEncode_next hstep with ⟨hrange, -⟩ | ⟨-, rfl⟩
    · omega
    · rw [finish_txbuf, encodeImage_header h8, hl, hcrc]
  refine ⟨hwire, ?_⟩
  rw [← byteAt_take (n := 8) (by decide), ← byteAt_take (n := 8) (i := 1) (by decide), hwire, ← hlen]
  exact toNat_eq_bytes l

end Sys2Proof.Machine
end

section
/-! SUPPORT. The codec's primitives: the laws of the CRC register (40_packet_codec.md R100, R101) and of the
pair swap (R102). -/

namespace Sys2Proof.Machine

/-! ### The CRC -/

theorem crcRun_append (p : Config) (c : BitVec 16) (s t : List Byte) :
    crcRun p c (s ++ t) = crcRun p (crcRun p c s) t := List.foldl_append

theorem crcShifts_zero (poly : BitVec 16) (n : Nat) : crcShifts true poly n 0 = 0 := by
  induction n with
  | zero => rfl
  | succ n ih => exact ih

/-- A register whose low n bits are 0 is only shifted: the polynomial never enters. -/
theorem crcShifts_of_low_zero (poly : BitVec 16) {n : Nat} {c : BitVec 16}
    (h : ∀ i < n, c.getLsbD i = false) : crcShifts true poly n c = c >>> n := by
  induction n generalizing c with
  | zero => rfl
  | succ n ih =>
    have hshift : crcShift true poly c = c >>> 1 := by simp [crcShift, h, -BitVec.getLsbD_eq_getElem]
    rw [crcShifts, hshift, ih, ← BitVec.shiftRight_add, Nat.add_comm]
    intro i hi
    rw [BitVec.getLsbD_ushiftRight]
    exact h _ (by omega)

/-- A register of one byte, met by that same byte, is cleared. -/
theorem crcByte_self (poly : BitVec 16) (b : Byte) : crcByte true poly (b.setWidth 16) b = 0 := by
  have hxor : b.setWidth 16 ^^^ b.setWidth 16 = 0 := BitVec.xor_self
  simp only [crcByte, if_true, hxor, crcShifts_zero]

/-- A register met by its own low byte keeps its high byte, moved down. -/
theorem crcByte_low (poly c : BitVec 16) :
    crcByte true poly c (c.extractLsb' 0 8) = (c.extractLsb' 8 8).setWidth 16 := by
  simp only [crcByte, if_true]
  rw [crcShifts_of_low_zero]
  · ext i hi
    by_cases hlt : i < 8
    · simp [hlt]
    · simp [hlt, BitVec.getLsbD_of_ge c (8 + i) (by omega)]
  · intro i hi
    simp [hi, hi.trans (by decide : 8 < 16)]

/-- The CRC under the default parameters is the bare register, started at 0. -/
theorem crc16_default (s : List Byte) : crc16 Config.default s = crcRun Config.default 0 s :=
  BitVec.xor_zero

theorem crcRun_replicate_zero (k : Nat) : crcRun Config.default 0 (List.replicate k 0) = 0 := by
  induction k with
  | zero => rfl
  | succ k ih => exact (congrArg (crcRun Config.default · (List.replicate k 0)) (crcByte_self _ 0)).trans ih

/-- Appending the register's own two bytes, low byte first, clears it. -/
theorem crcRun_append_self (c : BitVec 16) :
    crcRun Config.default c [c.extractLsb' 0 8, c.extractLsb' 8 8] = 0 := by
  show crcByte true _ (crcByte true _ c _) _ = 0
  rw [crcByte_low, crcByte_self]

theorem crc16_default_digits :
    crc16 Config.default [0x31, 0x32, 0x33, 0x34, 0x35, 0x36, 0x37, 0x38, 0x39] = 0xBB3D := by
  decide +kernel

/-- Settles O29: zero bytes leave a zero register, and the register's own bytes clear it. -/
theorem crcLaws : Obligations.CrcLaws := by
  refine ⟨rfl, crc16_default_digits, fun k s => ?_, fun s => ?_⟩
  · rw [crc16_default, crc16_default, crcRun_append, crcRun_replicate_zero]
  · rw [crc16_default, crc16_default, crcRun_append, crcRun_append_self]

/-! ### The pair swap -/

theorem pairSwap_getElem?_pair (s : List Byte) (i : Nat) (h : 2 * i + 1 < s.length) :
    (pairSwap s)[2 * i]? = s[2 * i + 1]? ∧ (pairSwap s)[2 * i + 1]? = s[2 * i]? := by
  induction s using pairSwap.induct generalizing i with
  | case1 => simp at h
  | case2 a => simp at h
  | case3 a b rest ih =>
    cases i with
    | zero => exact ⟨rfl, rfl⟩
    | succ j => exact ih j (by simp only [List.length_cons] at h; omega)

theorem pairSwap_getElem?_last (s : List Byte) (h : s.length % 2 = 1) :
    (pairSwap s)[s.length - 1]? = s[s.length - 1]? := by
  induction s using pairSwap.induct with
  | case1 => rfl
  | case2 a => rfl
  | case3 a b rest ih =>
    simp only [List.length_cons] at h
    obtain ⟨k, hk⟩ : ∃ k, rest.length = k + 1 := Nat.exists_eq_succ_of_ne_zero (by omega)
    have hlast := ih (by omega)
    rw [hk] at hlast
    simpa [pairSwap, hk] using hlast

theorem pairSwap_pairSwap (s : List Byte) : pairSwap (pairSwap s) = s := by
  induction s using pairSwap.induct with
  | case1 => rfl
  | case2 a => rfl
  | case3 a b rest ih => simp only [pairSwap, ih]

/-- A sequence without a complete pair is its own swap. -/
theorem pairSwap_of_length_le_one {s : List Byte} (h : s.length ≤ 1) : pairSwap s = s := by
  induction s using pairSwap.induct with
  | case1 => rfl
  | case2 a => rfl
  | case3 a b rest => simp at h

/-- Settles O30: the laws of R102, each by the recursion of the swap. -/
theorem pairSwapLaws : Obligations.PairSwapLaws :=
  ⟨pairSwap_getElem?_pair, pairSwap_getElem?_last, pairSwap_pairSwap, pairSwap_length, pairSwap_append⟩

end Sys2Proof.Machine
end

section
/-! SUPPORT. The codec operations that only read or rewrite TXBUF: NOP, CRC, SWAP and ENCODE
(40_packet_codec.md R110-R113). -/

namespace Sys2Proof.Machine

/-! ### How an operation of one step ends -/

theorem regsKept_finish (s : State) : RegsKeptBut [.status] s (finish s) := by
  intro r hr
  cases r
  case status => exact absurd (by decide) hr
  all_goals rfl

theorem bytesKept_finish (s : State) : BytesKept s (finish s) := fun b o => by rw [finish_buffer]

/-- The frame of every error that comes before anything is written: one flag and STATUS. -/
theorem raise_flag_frame (e : ErrCode) (f : Flag) (s : State) :
    EndedWith e.code s (raise e (s.flag f)) ∧ FlagsAdded [f] s (raise e (s.flag f)) ∧
    RegsKeptBut [.status, .flags, .sticky] s (raise e (s.flag f)) ∧
    BytesKept s (raise e (s.flag f)) ∧ NoLinkCall s (raise e (s.flag f)) ∧
    SurroundingsKept s (raise e (s.flag f)) := by
  refine ⟨⟨rfl, rfl⟩, flagsAdded_congr (flagsAdded_flag s f) rfl rfl rfl rfl, fun r hr => ?_,
    fun b o => ?_, ⟨rfl, rfl, rfl⟩, ⟨rfl, rfl, rfl⟩⟩
  · cases r
    case status | flags | sticky => exact absurd (by decide) hr
    all_goals rfl
  · cases b <;> rfl

/-- A range error ends an operation with nothing else changed (60_exceptions.md R181). -/
theorem rangeError_frame (s : State) :
    EndedWith 0x02 s (rangeError s) ∧ FlagsAdded [.rangeErr] s (rangeError s) ∧
    RegsKeptBut [.status, .flags, .sticky] s (rangeError s) ∧ BytesKept s (rangeError s) ∧
    NoLinkCall s (rangeError s) ∧ SurroundingsKept s (rangeError s) :=
  raise_flag_frame .range .rangeErr s

/-! ### NOP and CRC -/

/-- Settles O31: NOP is `finish`, and the rest is the accept's. -/
theorem nopOnlyRunsTheLifecycle : Obligations.NopOnlyRunsTheLifecycle := by
  refine ⟨decode_encode .nop, fun s => ⟨⟨finish s, rfl, ⟨rfl, rfl⟩, regsKept_finish s, bytesKept_finish s,
    ⟨rfl, rfl, rfl⟩, ⟨rfl, rfl, rfl⟩⟩, finish (accept 0 s), rfl, rfl, rfl, ?_, rfl, fun r hr => ?_,
    fun b o => ?_, ⟨rfl, rfl, rfl⟩⟩⟩
  · show Status.word { busy := false, done := true, lastOp := 0, err := 0 } = 0x00000002
    decide
  · cases r
    case status | flags | chunks => exact absurd (by decide) hr
    all_goals rfl
  · rw [finish_buffer, accept_buffer]

theorem regsKept_crcResult (s : State) (v : BitVec 16) :
    RegsKeptBut [.status, .crcResult] s (finish { s with crcResult := v }) := by
  intro r hr
  cases r
  case status | crcResult => exact absurd (by decide) hr
  all_goals rfl

/-- Settles O32: CRC writes CRC_RESULT and finishes; the example is the CRC law of R101. -/
theorem crcWritesChecksum : Obligations.CrcWritesChecksum := by
  refine ⟨decode_encode .crc, fun s => ⟨fun hN => ⟨_, if_neg (by omega), ⟨rfl, rfl⟩, rfl,
    regsKept_crcResult s _, fun b o => ?_, ⟨rfl, rfl, rfl⟩, ⟨rfl, rfl, rfl⟩, fun hzero => ?_,
    fun hcfg hnine hdigits => ?_⟩, fun hN => ⟨rangeError s, if_pos hN, rangeError_frame s⟩⟩⟩
  · rw [finish_buffer]
    cases b <;> rfl
  · simp only [finish_crcResult, hzero, bytes_zero]
    rfl
  · simp only [regValue, finish_crcResult, hnine, hdigits, hcfg, crc16_default_digits]
    rfl

/-! ### SWAP -/

/-- A buffer with the pairs of its first n bytes swapped, as R112 writes it. -/
def Memory.swapPrefix (m : Memory) (n : Nat) : Memory := m.write 0 (pairSwap (m.bytes 0 n))

theorem execSwap_of_le {s : State} (h : s.xferCount ≤ s.cfg.bufSize) :
    exec .swap s = .next (finish { s with txbuf := s.txbuf.swapPrefix s.xferCount }) :=
  if_neg (by omega)

theorem swapPrefix_bytes (m : Memory) (n : Nat) :
    (m.swapPrefix n).bytes 0 n = pairSwap (m.bytes 0 n) := by
  have hback := bytes_write_same m 0 (pairSwap (m.bytes 0 n))
  rwa [pairSwap_length, bytes_length] at hback

theorem swapPrefix_read_outside (m : Memory) {n o : Nat} (h : n ≤ o) :
    (m.swapPrefix n).read o = m.read o :=
  read_write_outside _ _ _ _ (.inr (by rwa [pairSwap_length, bytes_length, Nat.zero_add]))

/-- Two buffers that agree on their first n bytes and beyond them read alike. -/
theorem read_eq_of_bytes {m m' : Memory} {n : Nat} (hin : m'.bytes 0 n = m.bytes 0 n)
    (hout : ∀ o, n ≤ o → m'.read o = m.read o) (o : Nat) : m'.read o = m.read o := by
  by_cases h : o < n
  · rw [read_eq_getD_bytes m' n o h, hin, ← read_eq_getD_bytes m n o h]
  · exact hout o (by omega)

theorem swapPrefix_read_of_le_one (m : Memory) {n : Nat} (h : n ≤ 1) (o : Nat) :
    (m.swapPrefix n).read o = m.read o := by
  refine read_eq_of_bytes ?_ (fun _ => swapPrefix_read_outside m) o
  rw [swapPrefix_bytes, pairSwap_of_length_le_one (by rwa [bytes_length])]

theorem swapPrefix_swapPrefix_read (m : Memory) (n o : Nat) :
    ((m.swapPrefix n).swapPrefix n).read o = m.read o := by
  refine read_eq_of_bytes (n := n) ?_ (fun a ha => ?_) o
  · rw [swapPrefix_bytes, swapPrefix_bytes, pairSwap_pairSwap]
  · rw [swapPrefix_read_outside _ ha, swapPrefix_read_outside _ ha]

/-- Buffers are kept by a new TXBUF that reads as the old one. -/
theorem bytesKept_of_txbuf {s t : State} (htx : ∀ o, t.txbuf.read o = s.txbuf.read o)
    (hrx : t.rxbuf = s.rxbuf) (hpkt : t.rxpkt = s.rxpkt) : BytesKept s t := by
  intro b o
  cases b with
  | txbuf => exact htx o
  | rxbuf => exact congrArg (·.read o) hrx
  | rxpkt => exact congrArg (·.read o) hpkt

theorem regsKept_txbuf (s : State) (m : Memory) :
    RegsKeptBut [.status] s (finish { s with txbuf := m }) := by
  intro r hr
  cases r
  case status => exact absurd (by decide) hr
  all_goals rfl

/-- Settles O33: the first N bytes are swapped in place, and the swap is an involution. -/
theorem swapSwapsPrefixInPlace : Obligations.SwapSwapsPrefixInPlace := by
  refine ⟨decode_encode .swap, fun s => ⟨fun hN => ?_,
    fun hN => ⟨rangeError s, if_pos hN, rangeError_frame s⟩⟩⟩
  have hbytes := swapPrefix_bytes s.txbuf s.xferCount
  refine ⟨_, execSwap_of_le hN, ⟨rfl, rfl⟩, hbytes, fun b o hout => ?_, regsKept_txbuf s _,
    ⟨rfl, rfl, rfl⟩, ⟨rfl, rfl, rfl⟩, fun hone => ?_, ⟨_, execSwap_of_le hN, ?_⟩, fun hfive hex => ?_⟩
  · cases b with
    | txbuf => exact swapPrefix_read_outside _ (by simpa using hout)
    | rxbuf | rxpkt => rfl
  · exact bytesKept_of_txbuf (swapPrefix_read_of_le_one s.txbuf hone) rfl rfl
  · exact bytesKept_of_txbuf (swapPrefix_swapPrefix_read s.txbuf s.xferCount) rfl rfl
  · rw [hfive, hex] at hbytes
    simp only [finish_txbuf, hfive, hbytes]
    rfl

/-! ### ENCODE -/

section Encode
variable {s : State} (h8 : s.cfg.hdrLen = 8)
include h8

theorem packetLen_eq : s.packetLen = 8 + s.payloadLen := by rw [State.packetLen, h8]

theorem transmitLen_eq : s.transmitLen = roundEven (8 + s.payloadLen) := by
  rw [State.transmitLen, packetLen_eq h8]

/-- The pad stands right behind an odd image. -/
theorem encodeImage_pad (hodd : s.payloadLen % 2 = 1) :
    (encodeImage s).txbuf.read (8 + s.payloadLen) = s.cfg.padValue := by
  have hlen : (8 + s.payloadLen) % 2 = 1 := by omega
  simp only [encodeImage, packetLen_eq h8, if_pos hlen]
  exact read_write_inside _ _ [s.cfg.padValue] 0 Nat.one_pos

/-- From the payload on ENCODE writes no byte but the pad. -/
theorem encodeImage_read {o : Nat} (ho : 8 ≤ o) (hpad : ¬(s.payloadLen % 2 = 1 ∧ o = 8 + s.payloadLen)) :
    (encodeImage s).txbuf.read o = s.txbuf.read o := by
  have hheader (len crc : BitVec 16) : (((s.txbuf.write 0 (be16 len)).write 4 (be32 s.txCmd)).write 2
      (be16 crc)).read o = s.txbuf.read o := by
    rw [read_write_outside _ _ _ _ (by simp; omega), read_write_outside _ _ _ _ (by simp; omega),
      read_write_outside _ _ _ _ (by simp; omega)]
  simp only [encodeImage, packetLen_eq h8]
  split
  · rw [read_write_outside _ _ _ _ (by simp; omega), hheader]
  · exact hheader _ _

theorem encodeImage_payload : (encodeImage s).txbuf.bytes 8 s.payloadLen = s.txbuf.bytes 8 s.payloadLen :=
  bytes_congr _ _ _ _ fun i hi => encodeImage_read h8 (by omega) (by omega)

end Encode

/-- TX_WIRE_LEN holds T without loss. -/
theorem encodeImage_txWireLen {s : State} (hcfg : s.cfg.WellFormed) (hP : s.payloadLen ≤ s.cfg.maxPayload) :
    (encodeImage s).txWireLen.toNat = roundEven (8 + s.payloadLen) := by
  have hT := transmitLen_le hcfg hP
  have hbuf := bufSize_le hcfg
  rw [transmitLen_eq hcfg.2.1] at hT
  simp only [encodeImage, transmitLen_eq hcfg.2.1, BitVec.toNat_ofNat]
  omega

theorem regsKept_encodeImage (s : State) : RegsKeptBut [.status, .txWireLen] s (finish (encodeImage s)) := by
  intro r hr
  cases r
  case status | txWireLen => exact absurd (by decide) hr
  all_goals rfl

/-- Settles O34: the image of R85, the pad behind it, and T; the example by evaluating the image. -/
theorem encodeBuildsPacketImage : Obligations.EncodeBuildsPacketImage := by
  refine ⟨decode_encode .encode, fun s hcfg => ⟨fun hP => ?_,
    fun hP => ⟨rangeError s, if_pos hP, rangeError_frame s⟩⟩⟩
  have h8 : s.cfg.hdrLen = 8 := hcfg.2.1
  have himage := encodeImage_bytes h8
  rw [packetLen_eq h8] at himage
  refine ⟨finish (encodeImage s), if_neg (by omega), ⟨rfl, rfl⟩, himage, encodeImage_pad h8,
    fun o => encodeImage_read h8, fun b o hb => ?_, ?_, regsKept_encodeImage s, ⟨rfl, rfl, rfl⟩,
    ⟨rfl, rfl, rfl⟩, fun hdefault hcmd hzero => ?_⟩
  · cases b with
    | txbuf => exact absurd rfl hb
    | rxbuf | rxpkt => rfl
  · rw [regValue, BitVec.toNat_setWidth_of_le (by decide)]
    exact encodeImage_txWireLen hcfg hP
  · rw [hzero, hdefault, hcmd, bytes_zero] at himage
    rw [finish_txbuf]
    exact himage.trans (by decide +kernel)

end Sys2Proof.Machine
end

section
/-! SUPPORT. Validation and DECODE, case by case (40_packet_codec.md R105, R114): what each verdict raises,
flags and computes, and the header it reports. -/

namespace Sys2Proof.Machine

/-! ### The recovered image -/

/-- The logical image that a validation of n received bytes recovers. -/
def recoveredImage (n : Nat) (s : State) : List Byte := pairSwap (s.rxbuf.bytes 0 (swapWindow s n))

@[simp] theorem recoveredImage_length (n : Nat) (s : State) :
    (recoveredImage n s).length = swapWindow s n := by
  rw [recoveredImage, pairSwap_length, bytes_length]

theorem le_swapWindow {n k : Nat} {s : State} (hn : k ≤ n) (hk : k ≤ s.cfg.hdrLen ∨ k ≤ declaredLen s) :
    k ≤ swapWindow s n := by
  have heven := le_roundEven (declaredLen s)
  unfold swapWindow
  omega

@[simp] theorem recoverPacket_cfg (n : Nat) (s : State) : (recoverPacket n s).cfg = s.cfg := rfl
@[simp] theorem recoverPacket_crcMode (n : Nat) (s : State) :
    (recoverPacket n s).crcMode = s.crcMode := rfl
@[simp] theorem recoverPacket_shortAccept (n : Nat) (s : State) :
    (recoverPacket n s).shortAccept = s.shortAccept := rfl
@[simp] theorem recoverPacket_rxCrcEmbedded (n : Nat) (s : State) :
    (recoverPacket n s).rxCrcEmbedded = rdBe16 (recoveredImage n s) 2 := rfl

theorem flagsAdded_recoverPacket (n : Nat) (s : State) : FlagsAdded [] s (recoverPacket n s) :=
  flagsAdded_of_eq rfl rfl

/-- The bytes the CRC is taken over, from the image: the declared length lies in the window. -/
theorem recoverPacket_crcInput {n : Nat} {s : State} (hd : 4 ≤ declaredLen s) (hdn : declaredLen s ≤ n) :
    (recoverPacket n s).rxpkt.bytes 4 (declaredLen s - 4) =
      ((recoveredImage n s).drop 4).take (declaredLen s - 4) := by
  refine cleared_bytes _ 4 _ ?_
  have hlen : declaredLen s ≤ (recoveredImage n s).length :=
    (le_swapWindow hdn (.inr le_rfl)).trans_eq (recoveredImage_length n s).symm
  exact (Nat.add_sub_cancel' hd).trans_le hlen

/-! ### The verdicts of a validation -/

/-- What a validation raises, which flags it sets, and what it leaves in RX_CRC.COMPUTED. -/
structure Verdict (n : Nat) (s : State) (e : Option ErrCode) (fs : List Flag) (com : BitVec 16) :
    Prop where
  error : (validate n s).2 = e
  flags : FlagsAdded fs s (validate n s).1
  computed : (validate n s).1.rxCrcComputed = com

theorem verdict_of_eq {n : Nat} {s u : State} {e : Option ErrCode} {fs : List Flag} {com : BitVec 16}
    (h : validate n s = (u, e)) (hflags : FlagsAdded fs s u) (hcom : u.rxCrcComputed = com) :
    Verdict n s e fs com := by
  constructor <;> rw [h]
  · exact hflags
  · exact hcom

/-- One more `flag`, on a state whose FLAGS and STICKY are those of s with fs added. -/
theorem flagsAdded_snoc {fs : List Flag} {s u : State} (h : FlagsAdded fs s u) (f : Flag) :
    FlagsAdded (fs ++ [f]) s (u.flag f) := flagsAdded_trans h (flagsAdded_flag u f)

section Verdicts
variable {n : Nat} {s : State}

theorem validate_tooShort (h : n < s.cfg.hdrLen) : validate n s = (s.flag .tooShort, some .tooShort) :=
  if_pos h

variable (hn : s.cfg.hdrLen ≤ n)
include hn

theorem verdict_badLen (hd : declaredLen s < s.cfg.hdrLen) :
    Verdict n s (some .badLen) [.badLen] 0 :=
  verdict_of_eq (by simp [validate, hn.not_gt, hd])
    (flagsAdded_snoc (flagsAdded_recoverPacket n s) .badLen) rfl

variable (hd : s.cfg.hdrLen ≤ declaredLen s)
include hd

theorem verdict_shortPacket (hlt : n < declaredLen s) (ha : s.shortAccept = false) :
    Verdict n s (some .shortPacket) [.shortPacket] 0 :=
  verdict_of_eq (by simp [validate, hn.not_gt, hd.not_gt, hlt, ha])
    (flagsAdded_snoc (flagsAdded_recoverPacket n s) .shortPacket) rfl

theorem verdict_truncated (hlt : n < declaredLen s) (ha : s.shortAccept = true) :
    Verdict n s none [.shortPacket, .rxValid] 0 :=
  verdict_of_eq (by simp [validate, hn.not_gt, hd.not_gt, hlt, ha])
    (flagsAdded_snoc (flagsAdded_snoc (flagsAdded_recoverPacket n s) .shortPacket) .rxValid) rfl

variable (hdn : declaredLen s ≤ n)
include hdn

theorem verdict_ignored (hm : s.crcMode = 1) : Verdict n s none [.rxValid] 0 :=
  verdict_of_eq (by simp [validate, hn.not_gt, hd.not_gt, hdn.not_gt, hm])
    (flagsAdded_snoc (flagsAdded_recoverPacket n s) .rxValid) rfl

variable (h4 : 4 ≤ declaredLen s) (hm : s.crcMode ≠ 1) {c : BitVec 16}
  (hc : c = crc16 s.cfg (((recoveredImage n s).drop 4).take (declaredLen s - 4)))
include h4 hm hc

/-- The CRC over the recovered image is reported, and its comparison has three ends. -/
theorem verdict_crc :
    (validate n s).1.rxCrcComputed = c ∧
    (c = rdBe16 (recoveredImage n s) 2 → Verdict n s none [.crcChecked, .rxValid] c) ∧
    (c ≠ rdBe16 (recoveredImage n s) 2 → s.crcMode = 2 →
      Verdict n s (some .crc) [.crcChecked, .crcMismatch] c) ∧
    (c ≠ rdBe16 (recoveredImage n s) 2 → s.crcMode ≠ 2 →
      Verdict n s none [.crcChecked, .crcMismatch, .rxValid] c) := by
  have hcompare : validate n s = compareCrc (declaredLen s) (recoverPacket n s) := by
    simp [validate, hn.not_gt, hd.not_gt, hdn.not_gt, hm]
  have hinput := recoverPacket_crcInput h4 hdn
  have hchecked : FlagsAdded [.crcChecked] s
      (State.flag { recoverPacket n s with rxCrcComputed := c } .crcChecked) :=
    flagsAdded_snoc (flagsAdded_of_eq rfl rfl) .crcChecked
  have hmismatch := flagsAdded_snoc hchecked .crcMismatch
  have key := compareCrc_cases (declaredLen s) (recoverPacket n s)
  simp only [← hcompare, hinput, recoverPacket_cfg, recoverPacket_rxCrcEmbedded, recoverPacket_crcMode,
    ← hc] at key
  refine ⟨?_, fun heq => ?_, fun hne hstrict => ?_, fun hne hwarn => ?_⟩
  · rcases key with ⟨-, h⟩ | ⟨-, -, h⟩ | ⟨-, -, h⟩ <;> rw [h] <;> rfl
  · obtain ⟨-, h⟩ := key.resolve_right (by tauto)
    exact verdict_of_eq h (flagsAdded_snoc hchecked .rxValid) rfl
  · obtain ⟨-, -, h⟩ := (key.resolve_left (by tauto)).resolve_right (by tauto)
    exact verdict_of_eq h hmismatch rfl
  · obtain ⟨-, -, h⟩ := (key.resolve_left (by tauto)).resolve_left (by tauto)
    exact verdict_of_eq h (flagsAdded_snoc hmismatch .rxValid) rfl

end Verdicts

/-- The header fields a validation reports, whatever its verdict. -/
theorem validate_header {n : Nat} {s : State} (hn : s.cfg.hdrLen ≤ n) :
    (validate n s).1.rxLen = BitVec.ofNat 16 (declaredLen s) ∧
    (validate n s).1.rxCmd = rdBe32 (recoveredImage n s) 4 ∧
    (validate n s).1.rxCrcEmbedded = rdBe16 (recoveredImage n s) 2 := by
  have kc := compareCrc_cases (declaredLen s) (recoverPacket n s)
  rcases validate_cases n s with
    ⟨h1, -⟩ | ⟨-, -, h⟩ | ⟨-, -, -, -, h⟩ | ⟨-, -, -, -, h⟩ | ⟨-, -, -, -, h⟩ | ⟨-, -, -, -, h⟩
  case inl => omega
  case inr.inr.inr.inr.inr =>
    rw [h]
    rcases kc with ⟨-, hc⟩ | ⟨-, -, hc⟩ | ⟨-, -, hc⟩ <;> rw [hc] <;> exact ⟨rfl, rfl, rfl⟩
  all_goals rw [h]; exact ⟨rfl, rfl, rfl⟩

/-- A validation leaves EARLY_FILE_DATA as the early recognition set it (R106). -/
theorem validate_hasFlag_early (n : Nat) (s : State) :
    (validate n s).1.hasFlag .earlyFileData = s.hasFlag .earlyFileData := by
  have kc := compareCrc_cases (declaredLen s) (recoverPacket n s)
  have hrec : (recoverPacket n s).hasFlag .earlyFileData = s.hasFlag .earlyFileData := rfl
  rcases validate_cases n s with
    ⟨-, h⟩ | ⟨-, -, h⟩ | ⟨-, -, -, -, h⟩ | ⟨-, -, -, -, h⟩ | ⟨-, -, -, -, h⟩ | ⟨-, -, -, -, h⟩
  case inr.inr.inr.inr.inr =>
    rw [h]
    rcases kc with ⟨-, hc⟩ | ⟨-, -, hc⟩ | ⟨-, -, hc⟩ <;> simp [hc, hasFlag_flag] <;> rfl
  all_goals simp [h, hasFlag_flag, hrec]

end Sys2Proof.Machine
end

section
/-! SUPPORT. DECODE and the early recognition (40_packet_codec.md R106, R114). -/

namespace Sys2Proof.Machine

/-! ### The early recognition -/

/-- The flags that the early recognition sets before the validation. -/
def earlyFlags (n : Nat) (s : State) : List Flag := if isEarlyFileData n s then [.earlyFileData] else []

theorem flagsAdded_markEarly (n : Nat) (s : State) : FlagsAdded (earlyFlags n s) s (markEarly n s) := by
  unfold earlyFlags markEarly
  cases isEarlyFileData n s with
  | false => exact flagsAdded_refl s
  | true => exact flagsAdded_flag s .earlyFileData

@[simp] theorem isEarlyFileData_of_lt {n : Nat} {s : State} (h : n < s.cfg.hdrLen) :
    isEarlyFileData n s = false := by
  simp [isEarlyFileData, h]

theorem markEarly_of_lt {n : Nat} {s : State} (h : n < s.cfg.hdrLen) : markEarly n s = s := by
  rw [markEarly, isEarlyFileData_of_lt h, flagIf_false]

theorem earlyFlags_of_le {n : Nat} {s : State} (h : s.cfg.hdrLen ≤ n) :
    earlyFlags n s = if s.rxbuf.bytes 4 4 = wireCmd s.cfg.cmdFileData then [.earlyFileData] else [] := by
  simp [earlyFlags, isEarlyFileData, h]

@[simp] theorem markEarly_cfg (n : Nat) (s : State) : (markEarly n s).cfg = s.cfg := flagIf_cfg ..
@[simp] theorem markEarly_status (n : Nat) (s : State) : (markEarly n s).status = s.status :=
  flagIf_status ..
@[simp] theorem markEarly_crcMode (n : Nat) (s : State) : (markEarly n s).crcMode = s.crcMode :=
  flagIf_crcMode ..
@[simp] theorem markEarly_shortAccept (n : Nat) (s : State) :
    (markEarly n s).shortAccept = s.shortAccept := flagIf_shortAccept ..
@[simp] theorem markEarly_rxbuf (n : Nat) (s : State) : (markEarly n s).rxbuf = s.rxbuf := flagIf_rxbuf ..

@[simp] theorem declaredLen_markEarly (n : Nat) (s : State) :
    declaredLen (markEarly n s) = declaredLen s := by
  rw [declaredLen, markEarly_rxbuf, declaredLen]

@[simp] theorem recoveredImage_markEarly (n k : Nat) (s : State) :
    recoveredImage k (markEarly n s) = recoveredImage k s := by
  simp only [recoveredImage, swapWindow, declaredLen_markEarly, markEarly_rxbuf, markEarly_cfg]

/-! ### The state DECODE leaves -/

/-- The state a DECODE of a count in range leaves: the early recognition, the validation and its end. -/
def decoded (s : State) : State :=
  endWith (validate s.rxLength (markEarly s.rxLength s)).2 (validate s.rxLength (markEarly s.rxLength s)).1

theorem execDecode_of_le {s : State} (h : s.rxLength ≤ s.cfg.bufSize) :
    exec .decode s = .next (decoded s) := if_neg (by omega)

/-- How an operation has ended: normally, or with an error. -/
def EndedAs (e : Option ErrCode) (s t : State) : Prop :=
  match e with
  | none => EndedNormally s t
  | some c => EndedWith c.code s t

theorem endedAs_endWith (e : Option ErrCode) {s u : State} (h : u.status = s.status) :
    EndedAs e s (endWith e u) := by
  cases e with
  | none => exact ⟨rfl, by rw [endWith_none, finish_status, h]⟩
  | some c => exact ⟨rfl, by rw [endWith_some, raise_status, h]⟩

@[simp] theorem validate_status (n : Nat) (s : State) : (validate n s).1.status = s.status := by
  obtain ⟨_, _, _, _, _, _, _, h⟩ := validate_frame n s
  rw [h]

theorem noLinkCall_trans {s t u : State} (h : NoLinkCall s t) (k : NoLinkCall t u) : NoLinkCall s u := by
  obtain ⟨hlog, hanswers, hdraws⟩ := h
  obtain ⟨klog, kanswers, kdraws⟩ := k
  exact ⟨klog.trans hlog, kanswers.trans hanswers, kdraws.trans hdraws⟩

theorem noLinkCall_validate (n : Nat) (s : State) : NoLinkCall s (validate n s).1 := by
  obtain ⟨_, _, _, _, _, _, _, h⟩ := validate_frame n s
  rw [h]
  exact ⟨rfl, rfl, rfl⟩

theorem noLinkCall_decoded (s : State) : NoLinkCall s (decoded s) := by
  have hmark : NoLinkCall s (markEarly s.rxLength s) := ⟨flagIf_linkLog .., flagIf_answers .., flagIf_draws ..⟩
  have hend (e : Option ErrCode) (u : State) : NoLinkCall u (endWith e u) :=
    ⟨endWith_linkLog .., endWith_answers .., endWith_draws ..⟩
  exact noLinkCall_trans hmark (noLinkCall_trans (noLinkCall_validate _ _) (hend _ _))

/-- DECODE ends as the validation's verdict says, with the early recognition's flag before its own. -/
theorem decoded_of_verdict {s : State} {e : Option ErrCode} {fs : List Flag} {com : BitVec 16}
    (h : Verdict s.rxLength (markEarly s.rxLength s) e fs com) :
    EndedAs e s (decoded s) ∧ FlagsAdded (earlyFlags s.rxLength s ++ fs) s (decoded s) ∧
    (decoded s).rxCrcComputed = com := by
  obtain ⟨herror, hflags, hcom⟩ := h
  refine ⟨?_, ?_, by rw [decoded, endWith_rxCrcComputed, hcom]⟩
  · rw [decoded, herror]
    exact endedAs_endWith e (by simp)
  · exact flagsAdded_congr (flagsAdded_trans (flagsAdded_markEarly _ s) hflags) rfl rfl
      (endWith_flags ..) (endWith_sticky ..)

theorem decoded_of_tooShort {s : State} (h : s.rxLength < s.cfg.hdrLen) :
    decoded s = raise .tooShort (s.flag .tooShort) := by
  rw [decoded, markEarly_of_lt h, validate_tooShort h, endWith_some]

/-- The header fields and RXPKT after a DECODE of at least a header. -/
theorem decoded_header {s : State} (h : s.cfg.hdrLen ≤ s.rxLength) :
    (decoded s).rxLen = BitVec.ofNat 16 (declaredLen s) ∧
    (decoded s).rxCmd = rdBe32 (recoveredImage s.rxLength s) 4 ∧
    (decoded s).rxCrcEmbedded = rdBe16 (recoveredImage s.rxLength s) 2 ∧
    (decoded s).rxpkt = Memory.cleared (recoveredImage s.rxLength s) := by
  have hheader := validate_header (s := markEarly s.rxLength s) (n := s.rxLength) (by simpa using h)
  have hpkt := validate_rxpkt s.rxLength (markEarly s.rxLength s)
  rw [markEarly_cfg, if_neg h.not_gt] at hpkt
  obtain ⟨hlen, hcmd, hemb⟩ := hheader
  simp only [declaredLen_markEarly, recoveredImage_markEarly] at hlen hcmd hemb
  refine ⟨by rw [decoded, endWith_rxLen, hlen], by rw [decoded, endWith_rxCmd, hcmd],
    by rw [decoded, endWith_rxCrcEmbedded, hemb], ?_⟩
  rw [decoded, endWith_rxpkt, hpkt]
  exact congrArg Memory.cleared (recoveredImage_markEarly _ _ s)

theorem declaredLen_lt (s : State) : declaredLen s < 65536 := by
  have h0 := (s.rxbuf.read 0).isLt
  have h1 := (s.rxbuf.read 1).isLt
  unfold declaredLen
  omega

/-- Settles O35: each clause is the verdict of its case, behind the early recognition. -/
theorem decodeGivesTheVerdict : Obligations.DecodeGivesTheVerdict := by
  refine ⟨decode_encode .decode, fun s hcfg => ?_⟩
  have h8 : s.cfg.hdrLen = 8 := hcfg.2.1
  by_cases hrange : s.cfg.bufSize < s.rxLength
  · obtain ⟨hend, hflags, hregs, hbytes, hlink, hkept⟩ := rangeError_frame s
    exact ⟨rangeError s, if_pos hrange, hlink, hkept, fun b o _ => hbytes b o,
      fun _ => ⟨hend, hflags, hregs, hbytes⟩, fun h => absurd h (by omega), fun h => absurd h (by omega)⟩
  have hstep := execDecode_of_le (Nat.le_of_not_lt hrange)
  refine ⟨decoded s, hstep, noLinkCall_decoded s, surroundingsKept_exec hstep, fun b o hb => ?_,
    fun h => absurd h hrange, fun _ hshort => ?_, fun _ hn n d img early en ed eimg eearly => ?_⟩
  · rw [stepOf_buffers (stepOf_exec hstep) (by simpa [buffersWritten] using hb)]
  · rw [decoded_of_tooShort (by omega)]
    obtain ⟨hend, hflags, hregs, hbytes, -, -⟩ := raise_flag_frame .tooShort .tooShort s
    exact ⟨hend, hflags, hregs, hbytes⟩
  have hle : s.cfg.hdrLen ≤ s.rxLength := by omega
  obtain rfl : d = declaredLen s := ed
  obtain rfl : early = earlyFlags s.rxLength s := eearly.trans (earlyFlags_of_le hle).symm
  obtain rfl : img = recoveredImage s.rxLength s := by rw [eimg, en, recoveredImage, swapWindow, h8]
  obtain ⟨hlen, hcmd, hemb, hpkt⟩ := decoded_header hle
  have hdr : (markEarly s.rxLength s).cfg.hdrLen = 8 := by rw [markEarly_cfg, h8]
  have hdecl := declaredLen_markEarly s.rxLength s
  refine ⟨fun o => by rw [hpkt, cleared_read], ?_, hcmd, hemb,
    (engineStepWritesOnlyItsRegisters .decode s _ hstep).1, fun hd => ?_, fun hd hlt ha => ?_,
    fun hd hlt ha => ?_, fun hd hdn hm => ?_, fun hd hdn hm c hc => ?_⟩
  · have hlt := declaredLen_lt s
    rw [regValue, BitVec.toNat_setWidth_of_le (by decide), hlen, BitVec.toNat_ofNat, Nat.mod_eq_of_lt hlt]
  · exact decoded_of_verdict (verdict_badLen (by omega) (by omega))
  · exact decoded_of_verdict (verdict_shortPacket (by omega) (by omega) (by omega) (by simpa using ha))
  · exact decoded_of_verdict (verdict_truncated (by omega) (by omega) (by omega) (by simpa using ha))
  · exact decoded_of_verdict (verdict_ignored (by omega) (by omega) (by omega) (by simpa using hm))
  · obtain ⟨hcom, hmatch, hstrict, hwarn⟩ := verdict_crc (s := markEarly s.rxLength s) (n := s.rxLength)
      (c := c) (by omega) (by omega) (by omega) (by omega) (by simpa using hm) (by simpa using hc)
    simp only [recoveredImage_markEarly, markEarly_crcMode] at hmatch hstrict hwarn
    refine ⟨by rw [decoded, endWith_rxCrcComputed, hcom], fun heq => ?_, fun hne h2 => ?_, fun hne h2 => ?_⟩
    · obtain ⟨hend, hflags, -⟩ := decoded_of_verdict (hmatch heq)
      exact ⟨hend, hflags⟩
    · obtain ⟨hend, hflags, -⟩ := decoded_of_verdict (hstrict hne h2)
      exact ⟨hend, hflags⟩
    · obtain ⟨hend, hflags, -⟩ := decoded_of_verdict (hwarn hne h2)
      exact ⟨hend, hflags⟩

end Sys2Proof.Machine
end

section
/-! SUPPORT. What the header bytes of an image stand for: the early recognition against RX_CMD
(40_packet_codec.md R106), and the round trip of ENCODE and DECODE (R108). -/

namespace Sys2Proof.Machine

/-! ### Words from bytes -/

theorem append_bytes16 (v : BitVec 16) : v.extractLsb' 8 8 ++ v.extractLsb' 0 8 = v :=
  (BitVec.extractLsb'_append_extractLsb'_eq_extractLsb' rfl).trans BitVec.extractLsb'_eq_self

theorem append_bytes32 (w : Word) :
    (w.extractLsb' 24 8 ++ w.extractLsb' 16 8) ++ (w.extractLsb' 8 8 ++ w.extractLsb' 0 8) = w := by
  have hhigh : w.extractLsb' 24 8 ++ w.extractLsb' 16 8 = w.extractLsb' 16 (8 + 8) :=
    BitVec.extractLsb'_append_extractLsb'_eq_extractLsb' rfl
  have hlow : w.extractLsb' 8 8 ++ w.extractLsb' 0 8 = w.extractLsb' 0 (8 + 8) :=
    BitVec.extractLsb'_append_extractLsb'_eq_extractLsb' rfl
  rw [hhigh, hlow]
  exact (BitVec.extractLsb'_append_extractLsb'_eq_extractLsb' rfl).trans BitVec.extractLsb'_eq_self

/-- Four bytes make a word exactly when, with each pair exchanged, they are its wire form. -/
theorem append_bytes_eq_iff (a b c d : Byte) (w : Word) :
    (a ++ b) ++ (c ++ d) = w ↔ [b, a, d, c] = wireCmd w := by
  constructor
  · rintro rfl
    have ha : BitVec.extractLsb' 24 8 ((a ++ b) ++ (c ++ d)) = a :=
      (BitVec.extractLsb'_append_eq_of_le (by decide)).trans BitVec.extractLsb'_append_eq_left
    have hb : BitVec.extractLsb' 16 8 ((a ++ b) ++ (c ++ d)) = b :=
      (BitVec.extractLsb'_append_eq_of_le (by decide)).trans BitVec.extractLsb'_append_eq_right
    have hc : BitVec.extractLsb' 8 8 ((a ++ b) ++ (c ++ d)) = c :=
      (BitVec.extractLsb'_append_eq_of_add_le (by decide)).trans BitVec.extractLsb'_append_eq_left
    have hd : BitVec.extractLsb' 0 8 ((a ++ b) ++ (c ++ d)) = d :=
      (BitVec.extractLsb'_append_eq_of_add_le (by decide)).trans BitVec.extractLsb'_append_eq_right
    rw [wireCmd, ha, hb, hc, hd]
  · intro h
    simp only [wireCmd, List.cons.injEq, and_true] at h
    obtain ⟨rfl, rfl, rfl, rfl⟩ := h
    exact append_bytes32 w

/-! ### The early recognition and RX_CMD -/

/-- RX_CMD is read from the raw bytes 4 to 7, each pair exchanged. -/
theorem rdBe32_recoveredImage {n : Nat} {s : State} (h : 8 ≤ swapWindow s n) :
    rdBe32 (recoveredImage n s) 4 =
      (s.rxbuf.read 5 ++ s.rxbuf.read 4) ++ (s.rxbuf.read 7 ++ s.rxbuf.read 6) := by
  obtain ⟨k, hk⟩ := Nat.exists_eq_add_of_le h
  rw [recoveredImage, hk, bytes_add, pairSwap_append _ _ (by rw [bytes_length])]
  rfl

/-- DECODE flags EARLY_FILE_DATA exactly where it recognises one. -/
theorem decoded_hasFlag_early {s : State} (h : s.hasFlag .earlyFileData = false) :
    (decoded s).hasFlag .earlyFileData = isEarlyFileData s.rxLength s := by
  have hend : (decoded s).hasFlag .earlyFileData = (markEarly s.rxLength s).hasFlag .earlyFileData := by
    rw [State.hasFlag, decoded, endWith_flags]
    exact validate_hasFlag_early _ _
  rw [hend, (flagsAdded_markEarly s.rxLength s).1, h, earlyFlags]
  cases isEarlyFileData s.rxLength s <;> rfl

/-- Settles O36: the flag is the test on the raw bytes, and RX_CMD is read from the same four. -/
theorem earlyFileDataMatchesCommand : Obligations.EarlyFileDataMatchesCommand := by
  intro s t hcfg hrange hclear hstep
  have h8 : s.cfg.hdrLen = 8 := hcfg.2.1
  obtain rfl : decoded s = t := Host.Outcome.next.inj ((execDecode_of_le hrange).symm.trans hstep)
  have hraw : (decoded s).hasFlag .earlyFileData = true ↔
      8 ≤ s.rxLength ∧ s.rxbuf.bytes 4 4 = wireCmd s.cfg.cmdFileData := by
    rw [decoded_hasFlag_early hclear, isEarlyFileData, h8, Bool.and_eq_true, decide_eq_true_eq,
      decide_eq_true_eq]
  refine ⟨hraw, fun hn => ?_⟩
  obtain ⟨-, hcmd, -⟩ := decoded_header (h8.trans_le hn)
  rw [hraw, hcmd, rdBe32_recoveredImage (le_swapWindow hn (.inl h8.ge)), append_bytes_eq_iff]
  exact and_iff_right hn

/-! ### The fields of an image -/

section Image
variable (p : Config) (cmd : Word) (payload rest : List Byte)

theorem rdBe16_packetImage :
    rdBe16 (packetImage p cmd payload ++ rest) 2 = crc16 p (be32 cmd ++ payload) :=
  append_bytes16 _

theorem rdBe32_packetImage : rdBe32 (packetImage p cmd payload ++ rest) 4 = cmd :=
  append_bytes32 cmd

theorem packetImage_crcInput :
    ((packetImage p cmd payload ++ rest).drop 4).take (4 + payload.length) = be32 cmd ++ payload := by
  have hdrop : (packetImage p cmd payload ++ rest).drop 4 = (be32 cmd ++ payload) ++ rest := by
    simp [packetImage, be16]
  rw [hdrop]
  exact List.take_left' (by simp)

end Image

/-! ### The round trip -/

/-- State u has received the whole wire image of what ENCODE builds from state s. -/
structure Delivered (s u : State) : Prop where
  cfg : u.cfg = s.cfg
  count : u.rxLength = roundEven (8 + s.payloadLen)
  wire : u.rxbuf.bytes 0 u.rxLength = wireImage (encodeImage s) u.rxLength

theorem delivered_le_rxLength {s u : State} (h : Delivered s u) : 8 + s.payloadLen ≤ u.rxLength :=
  h.count ▸ le_roundEven _

section Delivered
variable {s u : State} (hcfg : s.cfg.WellFormed) (hP : s.payloadLen ≤ s.cfg.maxPayload)
  (h : Delivered s u)
include hcfg hP h

theorem delivered_declaredLen : declaredLen u = 8 + s.payloadLen := by
  have hn := delivered_le_rxLength h
  have hheader := headerOnTheWire s _ hcfg hP (if_neg hP.not_gt) _ _ rfl rfl
  have hread (i : Nat) (hi : i < 8) : u.rxbuf.read i = byteAt (wireImage (encodeImage s) u.rxLength) i := by
    rw [read_eq_getD_bytes u.rxbuf u.rxLength i (by omega), h.wire, byteAt]
  rw [declaredLen, hread 0 (by decide), hread 1 (by decide), h.count]
  exact hheader.2

/-- The window covers the whole wire image, so the swap gives back TXBUF's bytes up to T. -/
theorem delivered_image : recoveredImage u.rxLength u = (encodeImage s).txbuf.bytes 0 u.rxLength := by
  have hn := delivered_le_rxLength h
  have hwindow : swapWindow u u.rxLength = u.rxLength := by
    rw [swapWindow, delivered_declaredLen hcfg hP h, ← h.count, h.cfg, hcfg.2.1, Nat.max_eq_left (by omega),
      Nat.min_self]
  rw [recoveredImage, hwindow, h.wire, wireImage, pairSwap_pairSwap]

theorem delivered_packetImage : ∃ rest, recoveredImage u.rxLength u =
    packetImage s.cfg s.txCmd (s.txbuf.bytes 8 s.payloadLen) ++ rest := by
  obtain ⟨k, hk⟩ := Nat.exists_eq_add_of_le (delivered_le_rxLength h)
  have himage := encodeImage_bytes hcfg.2.1
  rw [packetLen_eq hcfg.2.1] at himage
  exact ⟨_, by rw [delivered_image hcfg hP h, hk, bytes_add, himage]⟩

/-- R108's reason: the CRC found in the image is the one computed over it, or nobody looks. -/
theorem delivered_verdict : ∃ fs com, Verdict u.rxLength (markEarly u.rxLength u) none fs com ∧
    .rxValid ∈ fs ∧ .crcMismatch ∉ fs ∧
    (u.crcMode ≠ 1 → com = rdBe16 (recoveredImage u.rxLength u) 2) := by
  have h8 : (markEarly u.rxLength u).cfg.hdrLen = 8 := by rw [markEarly_cfg, h.cfg, hcfg.2.1]
  have hdecl : declaredLen (markEarly u.rxLength u) = 8 + s.payloadLen := by
    rw [declaredLen_markEarly, delivered_declaredLen hcfg hP h]
  have hn := delivered_le_rxLength h
  by_cases hm : u.crcMode = 1
  · refine ⟨_, _, verdict_ignored (by omega) (by omega) (by omega) (by simpa using hm), by decide,
      by decide, absurd hm⟩
  · obtain ⟨rest, himage⟩ := delivered_packetImage hcfg hP h
    have hlen : 8 + s.payloadLen - 4 = 4 + (s.txbuf.bytes 8 s.payloadLen).length := by
      rw [bytes_length]; omega
    have hcrc : rdBe16 (recoveredImage u.rxLength u) 2 = crc16 (markEarly u.rxLength u).cfg
        (((recoveredImage u.rxLength (markEarly u.rxLength u)).drop 4).take
          (declaredLen (markEarly u.rxLength u) - 4)) := by
      rw [recoveredImage_markEarly, markEarly_cfg, h.cfg, hdecl, hlen, himage, packetImage_crcInput,
        rdBe16_packetImage]
    obtain ⟨-, hmatch, -⟩ := verdict_crc (by omega) (by omega) (by omega) (by omega)
      (by simpa using hm) hcrc
    exact ⟨_, _, hmatch (by rw [recoveredImage_markEarly]), by decide, by decide, fun _ => rfl⟩

theorem delivered_payload : (Memory.cleared (recoveredImage u.rxLength u)).bytes 8 s.payloadLen =
    s.txbuf.bytes 8 s.payloadLen := by
  have hn := delivered_le_rxLength h
  rw [← encodeImage_payload hcfg.2.1]
  refine bytes_congr _ _ _ _ fun i hi => ?_
  rw [cleared_read, delivered_image hcfg hP h, ← read_eq_getD_bytes _ _ _ (by omega)]

end Delivered

/-- Settles O38: the whole image is recovered, so DECODE reads cmd, payload and a CRC that agrees. -/
theorem encodeThenDecodeRoundTrip : Obligations.EncodeThenDecodeRoundTrip := by
  intro s hcfg hP
  refine ⟨finish (encodeImage s), if_neg hP.not_gt, fun u hu hclear hcount hwire => ?_⟩
  have hT := encodeImage_txWireLen hcfg hP
  have hn : u.rxLength = (encodeImage s).txWireLen.toNat := congrArg BitVec.toNat hcount
  have h : Delivered s u := ⟨hu, hn.trans hT, by rw [hn]; exact hwire⟩
  have hle := delivered_le_rxLength h
  have hrange : u.rxLength ≤ u.cfg.bufSize := by
    rw [h.count, ← transmitLen_eq hcfg.2.1, hu]
    exact transmitLen_le hcfg hP
  obtain ⟨fs, com, hverdict, hvalid, hmatch, hcom⟩ := delivered_verdict hcfg hP h
  obtain ⟨hend, hflags, hcomputed⟩ := decoded_of_verdict hverdict
  obtain ⟨hlen, hcmd, hemb, hpkt⟩ := decoded_header (s := u) (by rw [hu, hcfg.2.1]; omega)
  obtain ⟨rest, himage⟩ := delivered_packetImage hcfg hP h
  have hnone : u.hasFlag .crcMismatch = false := by simp [State.hasFlag, hclear]
  refine ⟨decoded u, execDecode_of_le hrange, hend, ?_, ?_, ?_, ?_, ?_, fun hm => ?_⟩
  · rw [hflags.1]
    simp [hvalid]
  · rw [hflags.1]
    simp [hmatch, hnone, earlyFlags]
  · rw [hcmd, himage, rdBe32_packetImage]
  · rw [hlen, BitVec.toNat_ofNat, Nat.mod_eq_of_lt (declaredLen_lt u), delivered_declaredLen hcfg hP h]
  · rw [hpkt, delivered_payload hcfg hP h]
  · rw [hcomputed, hcom hm, hemb]

end Sys2Proof.Machine
end

section
/-! SUPPORT. A chunk call whose answer is listed (41_bulk_transport.md R140, R141, R143): the call in the
model's record, and what the ends `writeDone` and `readDone` make of its answer. -/

namespace Sys2Proof.Machine

/-! ### The call -/

/-- The state right after a link call whose listed answer was taken, `rest` listed behind it. -/
def State.called (s : State) (ev : LinkEvent) (rest : List LinkAnswer) : State :=
  { s.logCall ev with answers := rest }

/-- The context of a loop that has moved `moved` of `total` bytes (10_state.md R22). -/
abbrev chunkCtx (word : Word) (moved total : Nat) : Ctx :=
  { word := word, stage := .chunk, cursor := moved, target := total }

theorem chunkCtx_of_stage {c : Ctx} (h : c.stage = .chunk) : c = chunkCtx c.word c.cursor c.target := by
  rw [chunkCtx, ← h]

theorem update_draws {i : Instr} {s t : State} (h : Update i s t) : t.draws = s.draws := by
  cases h with
  | @buffer b _ _ => cases b <;> rfl
  | _ => rfl

theorem updates_draws {i : Instr} {s t : State} (h : Updates i s t) : t.draws = s.draws := by
  induction h with
  | refl => rfl
  | tail _ hlast ih => exact (update_draws hlast).trans ih

/-- A call with nothing but updates around it is the step's one call. -/
theorem callMade_of_updates {i : Instr} {s u t : State} {ev : LinkEvent} {rest : List LinkAnswer}
    (before : Updates i s u) (after : Updates i (u.called ev rest) t) : CallMade ev rest s t := by
  obtain ⟨-, hlog, hchunks, -⟩ := updates_kept before
  obtain ⟨-, hlog', hchunks', hanswers⟩ := updates_kept after
  have hdraws := updates_draws before
  have hdraws' := updates_draws after
  exact ⟨hlog'.trans (congrArg (ev :: ·) hlog), hchunks'.trans (congrArg (· + 1) hchunks), hanswers,
    hdraws'.trans hdraws⟩

/-- A write loop's step over a listed answer within the contract. -/
theorem writeLoopStep_call {i : Instr} (hi : i ∈ [Instr.bulkWrite, .send, .recv])
    {fin : Nat → Stop → State → State} (hfin : EndUpdates i fin) {s u : State} (before : Updates i s u)
    {src : List Byte} {c : Ctx} (hlt : c.cursor < c.target) (hsrc : c.target ≤ src.length)
    {a : WriteAnswer} {rest : List LinkAnswer} (hans : s.answers = .write a :: rest) {n : Nat}
    (hn : n = min s.cfg.chunkMax (c.target - c.cursor)) (hw : writeWithin n a = true) (ep : Byte) :
    ∃ ev, ev = .write ep ((src.drop c.cursor).take n) s.timeout (some a) ∧
      writeLoopStep ep src fin c u = .next (afterWrite fin c a (u.called ev rest)) ∧
      CallMade ev rest s (afterWrite fin c a (u.called ev rest)) := by
  obtain ⟨⟨hcfg, htimeout, -⟩, -, -, hanswers⟩ := updates_kept before
  have hsize : chunkSize u c = n := by rw [chunkSize, hcfg, hn]
  have hlen : ((src.drop c.cursor).take n).length = n := by
    rw [List.length_take, List.length_drop]
    omega
  refine ⟨_, rfl, ?_, callMade_of_updates before (updates_afterWrite hi hfin c a _)⟩
  rw [writeLoopStep_listed hlt (hanswers.trans hans) (by rwa [hsize, hlen]), hsize, htimeout, State.called]

/-- A read loop's step over a listed answer within the contract. -/
theorem readLoopStep_call {i : Instr} (hi : i ∈ [Instr.bulkRead, .recv])
    {fin : Nat → Stop → State → State} (hfin : EndUpdates i fin) {s : State} {c : Ctx}
    (hlt : c.cursor < c.target) {a : ReadAnswer} {rest : List LinkAnswer}
    (hans : s.answers = .read a :: rest) {n : Nat}
    (hn : n = min s.cfg.chunkMax (c.target - c.cursor)) (hw : readWithin n a = true) (ep : Byte) :
    ∃ ev, ev = .read ep n s.timeout (some a) ∧
      readLoopStep ep fin c s = .next (afterRead fin c n a (s.called ev rest)) ∧
      CallMade ev rest s (afterRead fin c n a (s.called ev rest)) := by
  obtain rfl : n = chunkSize s c := hn
  exact ⟨_, rfl, readLoopStep_listed hlt hans hw,
    callMade_of_updates .refl (updates_afterRead hi hfin c _ a _)⟩

/-! ### What a write's answer leads to -/

/-- What a step of operation i has done before its chunk call: updates of its rule, which set the flags
`pre` and leave STATUS, LINK_ERR and RESULT_COUNT. -/
structure Prepared (i : Instr) (pre : List Flag) (s u : State) : Prop where
  updates : Updates i s u
  flags : FlagsAdded pre s u
  status : u.status = s.status
  linkErr : u.linkErr = s.linkErr
  resultCount : u.resultCount = s.resultCount

theorem prepared_refl (i : Instr) (s : State) : Prepared i [] s s :=
  ⟨.refl, flagsAdded_refl s, rfl, rfl, rfl⟩

theorem flagsAdded_warn512 (n : Nat) (s : State) : FlagsAdded (warnFlags s n) s (warn512 n s) := by
  unfold warnFlags warn512
  by_cases h : n % s.cfg.m512 = 0
  · simpa [h] using flagsAdded_flag s .m512Warn
  · simpa [h] using flagsAdded_refl s

theorem prepared_warn512 (n : Nat) (s : State) :
    Prepared .bulkWrite (warnFlags s n) s (warn512 n s) :=
  ⟨updates_warn512 (by decide) n s, flagsAdded_warn512 n s, flagIf_status .., flagIf_linkErr ..,
    flagIf_resultCount ..⟩

/-- Two more `flag`s, as an error of the write loop sets them. -/
theorem flagsAdded_flag_flag {pre : List Flag} {s u : State} (h : FlagsAdded pre s u) (f g : Flag) :
    FlagsAdded (pre ++ [f, g]) s ((u.flag f).flag g) :=
  flagsAdded_trans h (flagsAdded_trans (flagsAdded_flag u f) (flagsAdded_flag _ g))

/-- A write loop goes on from the first unsent byte while the link takes some and bytes are left. -/
theorem afterWrite_more {fin : Nat → Stop → State → State} {c : Ctx} {k : Nat} {s : State} (hk : 0 < k)
    (hmore : c.cursor + k < c.target) :
    afterWrite fin c (.ok k) s = s.continueWith { c with cursor := c.cursor + k } := by
  simp [afterWrite, hk.ne', hmore]

/-- A write loop ends where the link took the last bytes. -/
theorem afterWrite_whole {fin : Nat → Stop → State → State} {c : Ctx} {k : Nat} {s : State} (hk : 0 < k)
    (hend : c.target ≤ c.cursor + k) : afterWrite fin c (.ok k) s = fin (c.cursor + k) none s := by
  simp [afterWrite, hk.ne', hend.not_gt]

theorem writeOutcome_afterWrite {i : Instr} {pre : List Flag} {s u : State} (h : Prepared i pre s u)
    (word : Word) (sent total : Nat) (a : WriteAnswer) (ev : LinkEvent) (rest : List LinkAnswer) :
    WriteOutcome word sent total a pre s
      (afterWrite writeDone (chunkCtx word sent total) a (u.called ev rest)) := by
  obtain ⟨-, hflags, hstatus, herr, hcount⟩ := h
  cases a with
  | err e =>
    exact ⟨endedAs_endWith (some .io) hstatus, rfl, rfl,
      flagsAdded_congr (flagsAdded_flag_flag hflags .ioError .shortWrite) rfl rfl rfl rfl⟩
  | ok k =>
    cases k with
    | zero =>
      exact ⟨endedAs_endWith (some .zero) hstatus, herr, rfl,
        flagsAdded_congr (flagsAdded_flag_flag hflags .zeroXfer .shortWrite) rfl rfl rfl rfl⟩
    | succ k =>
      by_cases hlt : sent + (k + 1) < total
      · rw [afterWrite_more k.succ_pos hlt]
        exact ⟨herr, flagsAdded_congr hflags rfl rfl rfl rfl, fun _ => ⟨rfl, hstatus, hcount⟩,
          fun hle => absurd hlt hle.not_gt⟩
      · rw [afterWrite_whole k.succ_pos (Nat.le_of_not_lt hlt)]
        exact ⟨herr, flagsAdded_congr hflags rfl rfl rfl rfl, fun h => absurd h hlt,
          fun _ => ⟨endedAs_endWith none hstatus, rfl⟩⟩

/-- A chunk call of BULK_WRITE's or SEND's write loop over a listed answer within the contract. -/
theorem writeLoopStep_outcome {i : Instr} (hi : i ∈ [Instr.bulkWrite, .send]) {pre : List Flag}
    {s u : State} (h : Prepared i pre s u) {src : List Byte} {sent total : Nat} (hlt : sent < total)
    (hsrc : src.length = total) {a : WriteAnswer} {rest : List LinkAnswer}
    (hans : s.answers = .write a :: rest) {n : Nat} (hn : n = min s.cfg.chunkMax (total - sent))
    (hw : writeWithin n a = true) (ep : Byte) (word : Word) :
    ∃ t, writeLoopStep ep src writeDone (chunkCtx word sent total) u = .next t ∧
      CallMade (.write ep ((src.drop sent).take n) s.timeout (some a)) rest s t ∧
      WriteOutcome word sent total a pre s t ∧
      (∀ b, t.buffer b = u.buffer b) ∧ t.txWireLen = u.txWireLen := by
  have hlists : i ∈ [Instr.bulkWrite, .send, .recv] ∧ Reg.resultCount ∈ regsWritten i := by
    clear h
    revert i
    decide
  obtain ⟨ev, rfl, hstep, hcall⟩ := writeLoopStep_call hlists.1 (endUpdates_writeDone hlists.2) h.updates
    (c := chunkCtx word sent total) hlt hsrc.ge hans hn hw ep
  refine ⟨_, hstep, hcall, writeOutcome_afterWrite h word sent total a _ rest, fun b => ?_, ?_⟩
  · have hafter := updates_afterWrite (i := .bulkWrite) (by decide) (endUpdates_writeDone (by decide))
      (chunkCtx word sent total) a (u.called (.write ep ((src.drop sent).take n) s.timeout (some a)) rest)
    exact (updates_buffers hafter List.not_mem_nil).trans (by cases b <;> rfl)
  · rcases afterWrite_cases writeDone (chunkCtx word sent total) a (u.called _ rest) with
      ⟨_, -, hafter⟩ | ⟨-, hafter⟩ | ⟨_, -, -, -, hafter⟩ | ⟨_, -, -, -, hafter⟩ <;> rw [hafter] <;> rfl

/-! ### What a read's answer leads to -/

/-- The buffers after a store in RXBUF. -/
theorem bytesKeptBut_rxbuf {s t : State} {start : Nat} {bs : List Byte}
    (hrx : t.rxbuf = s.rxbuf.write start bs) (htx : t.txbuf = s.txbuf) (hpkt : t.rxpkt = s.rxpkt) :
    BytesKeptBut .rxbuf start bs.length s t := by
  intro b o hout
  cases b with
  | txbuf => exact congrArg (·.read o) htx
  | rxbuf =>
    have houtside : o < start ∨ start + bs.length ≤ o := by
      simp only [true_and] at hout
      omega
    exact (congrArg (·.read o) hrx).trans (read_write_outside _ _ _ _ houtside)
  | rxpkt => exact congrArg (·.read o) hpkt

theorem readOutcome_afterRead (s : State) (word : Word) (got total asked : Nat) (a : ReadAnswer)
    (ev : LinkEvent) (rest : List LinkAnswer) :
    ReadOutcome word got total asked a s
      (afterRead readDone (chunkCtx word got total) asked a (s.called ev rest)) := by
  rcases afterRead_cases readDone (chunkCtx word got total) asked a (s.called ev rest) with
    ⟨e, rfl, h⟩ | ⟨bs, rfl, hshort, h⟩ | ⟨bs, rfl, hfull, hmore, h⟩ | ⟨bs, rfl, hfull, hend, h⟩ <;> rw [h]
  · exact ⟨⟨rfl, rfl⟩, rfl, rfl, rfl, flagsAdded_congr (flagsAdded_flag s .ioError) rfl rfl rfl rfl,
      fun b _ => by cases b <;> rfl⟩
  · exact ⟨rfl, bytes_write_same _ _ _, bytesKeptBut_rxbuf rfl rfl rfl, fun _ => ⟨⟨rfl, rfl⟩, rfl, rfl,
      flagsAdded_congr (flagsAdded_flag s .shortRead) rfl rfl rfl rfl⟩,
      fun hle => absurd hshort hle.not_gt, fun hle => absurd hshort hle.not_gt⟩
  · exact ⟨rfl, bytes_write_same _ _ _, bytesKeptBut_rxbuf rfl rfl rfl,
      fun hlt => absurd hlt hfull.not_gt, fun _ _ => ⟨rfl, rfl, rfl, rfl, flagsAdded_of_eq rfl rfl⟩,
      fun _ hle => absurd hmore hle.not_gt⟩
  · exact ⟨rfl, bytes_write_same _ _ _, bytesKeptBut_rxbuf rfl rfl rfl,
      fun hlt => absurd hlt hfull.not_gt, fun _ hlt => absurd hlt hend.not_gt,
      fun _ _ => ⟨⟨rfl, rfl⟩, rfl, rfl, flagsAdded_of_eq rfl rfl⟩⟩

end Sys2Proof.Machine
end

section
/-! SUPPORT. BULK_WRITE and BULK_READ, step by step (41_bulk_transport.md R145, R146). -/

namespace Sys2Proof.Machine

/-! ### BULK_WRITE -/

section Stages
variable {s : State} {c : Ctx} (hrun : s.engine = .run c)
include hrun

theorem execBulkWrite_start (hstage : c.stage = .start) :
    exec .bulkWrite s = if s.cfg.bufSize < s.xferCount then .next (rangeError s)
      else writeLoopStep s.cfg.epOut (s.txbuf.bytes 0 s.xferCount) writeDone
        (chunkCtx c.word 0 s.xferCount) (warn512 s.xferCount s) := by
  simp only [exec, execBulkWrite, ctx_of_run hrun, hstage, Ctx.loop]

theorem execBulkWrite_chunk (hstage : c.stage = .chunk) :
    exec .bulkWrite s = writeLoopStep s.cfg.epOut (s.txbuf.bytes 0 c.target) writeDone
      (chunkCtx c.word c.cursor c.target) s := by
  simp only [exec, execBulkWrite, ctx_of_run hrun, hstage, ← chunkCtx_of_stage hstage]

theorem execBulkRead_start (hstage : c.stage = .start) :
    exec .bulkRead s = if s.cfg.bufSize < s.xferCount then .next (rangeError s)
      else readLoopStep s.cfg.epIn readDone (chunkCtx c.word 0 s.xferCount) s := by
  simp only [exec, execBulkRead, ctx_of_run hrun, hstage, Ctx.loop]

theorem execBulkRead_chunk (hstage : c.stage = .chunk) :
    exec .bulkRead s = readLoopStep s.cfg.epIn readDone (chunkCtx c.word c.cursor c.target) s := by
  simp only [exec, execBulkRead, ctx_of_run hrun, hstage, ← chunkCtx_of_stage hstage]

end Stages

/-- The frame of a BULK_WRITE step that ends or goes on (10_state.md R22, R45). -/
theorem bulkWrite_frame {s t : State} (h : exec .bulkWrite s = .next t) :
    RegsKeptBut [.status, .flags, .sticky, .resultCount, .linkErr, .chunks] s t ∧ BytesKept s t ∧
    SurroundingsKept s t := by
  obtain ⟨hregs, hkept⟩ := engineStepWritesOnlyItsRegisters _ s t h
  exact ⟨hregs, fun b o => (engineStepWritesOnlyItsBuffers _ s t h).1 b o List.not_mem_nil, hkept⟩

theorem warn512_zero (s : State) : warn512 0 s = s.flag .m512Warn := by
  simp [warn512]

theorem regsKept_emptyWrite (s : State) :
    RegsKeptBut [.status, .flags, .sticky, .resultCount] s (writeDone 0 none (s.flag .m512Warn)) := by
  intro r hr
  cases r
  case status | flags | sticky | resultCount => exact absurd (by decide) hr
  all_goals rfl

/-- Settles O39: the range check, the loop of no bytes, and the first chunk call behind the 512 test. -/
theorem bulkWriteFirstStep : Obligations.BulkWriteFirstStep := by
  intro s c _ hrun hstage
  have hexec := execBulkWrite_start hrun hstage
  refine ⟨fun hrange => ⟨rangeError s, hexec.trans (if_pos hrange), rangeError_frame s⟩, fun hzero => ?_,
    fun hpos hN a rest n hans hn hw => ?_⟩
  · rw [hzero, if_neg (Nat.not_lt_zero _), warn512_zero] at hexec
    have hstep : exec .bulkWrite s = .next (writeDone 0 none (s.flag .m512Warn)) := hexec
    obtain ⟨-, hbytes, hkept⟩ := bulkWrite_frame hstep
    exact ⟨_, hstep, ⟨rfl, rfl⟩, flagsAdded_congr (flagsAdded_flag s .m512Warn) rfl rfl rfl rfl, rfl,
      regsKept_emptyWrite s, hbytes, ⟨rfl, rfl, rfl⟩, hkept⟩
  · rw [if_neg hN.not_gt] at hexec
    obtain ⟨t, hloop, hcall, hout, -⟩ := writeLoopStep_outcome (by decide) (prepared_warn512 s.xferCount s)
      hpos (bytes_length s.txbuf 0 _) hans hn hw s.cfg.epOut c.word
    rw [bytes_drop_take _ _ _ _ (by omega)] at hcall
    exact ⟨t, hexec.trans hloop, hcall, hout, bulkWrite_frame (hexec.trans hloop)⟩

/-- Settles O40: a chunk call of the loop, whose source is TXBUF up to the loop's total. -/
theorem bulkWriteChunkStep : Obligations.BulkWriteChunkStep := by
  intro s c a rest n hrun hstage hlt hans hn hw
  have hexec := execBulkWrite_chunk hrun hstage
  obtain ⟨t, hloop, hcall, hout, -⟩ := writeLoopStep_outcome (by decide) (prepared_refl .bulkWrite s)
    hlt (bytes_length s.txbuf 0 _) hans hn hw s.cfg.epOut c.word
  rw [bytes_drop_take _ _ _ _ (by omega)] at hcall
  exact ⟨t, hexec.trans hloop, hcall, hout, bulkWrite_frame (hexec.trans hloop)⟩

/-! ### BULK_READ -/

theorem regsKept_emptyRead (s : State) :
    RegsKeptBut [.status, .rxCount, .resultCount] s (readDone 0 none s) := by
  intro r hr
  cases r
  case status | rxCount | resultCount => exact absurd (by decide) hr
  all_goals rfl

/-- A chunk call of BULK_READ's loop over a listed answer within the contract. -/
theorem bulkRead_call {s : State} {word : Word} {got total n : Nat} {a : ReadAnswer}
    {rest : List LinkAnswer}
    (hexec : exec .bulkRead s = readLoopStep s.cfg.epIn readDone (chunkCtx word got total) s)
    (hlt : got < total) (hans : s.answers = .read a :: rest) (hn : n = min s.cfg.chunkMax (total - got))
    (hw : readWithin n a = true) :
    ∃ t, exec .bulkRead s = .next t ∧ CallMade (.read s.cfg.epIn n s.timeout (some a)) rest s t ∧
      ReadOutcome word got total n a s t ∧
      RegsKeptBut [.status, .flags, .sticky, .rxCount, .resultCount, .linkErr, .chunks] s t ∧
      SurroundingsKept s t := by
  obtain ⟨ev, rfl, hloop, hcall⟩ := readLoopStep_call (by decide) endUpdates_readDone
    (c := chunkCtx word got total) hlt hans hn hw s.cfg.epIn
  have hstep := hexec.trans hloop
  exact ⟨_, hstep, hcall, readOutcome_afterRead s word got total n a _ rest,
    engineStepWritesOnlyItsRegisters _ s _ hstep⟩

/-- Settles O41: the range check, the loop of no bytes, and the first chunk call. -/
theorem bulkReadFirstStep : Obligations.BulkReadFirstStep := by
  intro s c _ hrun hstage
  have hexec := execBulkRead_start hrun hstage
  refine ⟨fun hrange => ⟨rangeError s, hexec.trans (if_pos hrange), rangeError_frame s⟩, fun hzero => ?_,
    fun hpos hN a rest n hans hn hw => ?_⟩
  · rw [hzero, if_neg (Nat.not_lt_zero _)] at hexec
    exact ⟨readDone 0 none s, hexec, ⟨rfl, rfl⟩, flagsAdded_of_eq rfl rfl, rfl, rfl, regsKept_emptyRead s,
      fun b _ => by cases b <;> rfl, ⟨rfl, rfl, rfl⟩, ⟨rfl, rfl, rfl⟩⟩
  · exact bulkRead_call (hexec.trans (if_neg hN.not_gt)) hpos hans hn hw

/-- Settles O42: a chunk call of the loop. -/
theorem bulkReadChunkStep : Obligations.BulkReadChunkStep := by
  intro s c a rest n hrun hstage hlt hans hn hw
  exact bulkRead_call (execBulkRead_chunk hrun hstage) hlt hans hn hw

end Sys2Proof.Machine
end

section
/-! SUPPORT. SEND, step by step (41_bulk_transport.md R147). -/

namespace Sys2Proof.Machine

section Stages
variable {s : State} {c : Ctx} (hrun : s.engine = .run c)
include hrun

theorem execSend_start (hstage : c.stage = .start) :
    exec .send s = if s.cfg.maxPayload < s.payloadLen then .next (rangeError s)
      else writeLoopStep s.cfg.epOut (wireImage (sendPrepare s) s.transmitLen) writeDone
        (chunkCtx c.word 0 s.transmitLen) (sendPrepare s) := by
  simp only [exec, execSend, ctx_of_run hrun, hstage, Ctx.loop]

theorem execSend_chunk (hstage : c.stage = .chunk) :
    exec .send s = writeLoopStep s.cfg.epOut (wireImage s c.target) writeDone
      (chunkCtx c.word c.cursor c.target) s := by
  simp only [exec, execSend, ctx_of_run hrun, hstage, ← chunkCtx_of_stage hstage]

end Stages

theorem execEncode_of_le {s : State} (h : s.payloadLen ≤ s.cfg.maxPayload) :
    exec .encode s = .next (finish (encodeImage s)) := if_neg h.not_gt

/-- What SEND prepares holds the packet that ENCODE leaves. -/
theorem sendPrepare_encoded (s : State) :
    (∀ b, (sendPrepare s).buffer b = (finish (encodeImage s)).buffer b) ∧
    (sendPrepare s).txWireLen = (finish (encodeImage s)).txWireLen :=
  ⟨fun b => by rw [sendPrepare, warn512, flagIf_buffer, finish_buffer],
    by rw [sendPrepare, warn512, flagIf_txWireLen, finish_txWireLen]⟩

theorem wireImage_congr {s t : State} (h : t.txbuf = s.txbuf) (n : Nat) : wireImage t n = wireImage s n := by
  rw [wireImage, h, wireImage]

theorem prepared_sendPrepare (s : State) :
    Prepared .send (warnFlags s s.transmitLen) s (sendPrepare s) := by
  obtain ⟨hup, hflags, hstatus, herr, hcount⟩ := prepared_warn512 s.transmitLen (encodeImage s)
  exact ⟨(updates_encodeImage (by decide) (by decide) s).trans (updates_warn512 (by decide) _ _),
    flagsAdded_congr hflags rfl rfl rfl rfl, hstatus, herr, hcount⟩

/-- Settles O43: the range check, or the packet as ENCODE builds it and the first chunk of its wire image. -/
theorem sendFirstStep : Obligations.SendFirstStep := by
  intro s c hcfg hrun hstage
  have hexec := execSend_start hrun hstage
  refine ⟨fun hrange => ⟨rangeError s, hexec.trans (if_pos hrange), rangeError_frame s⟩,
    fun hP a rest n total hans htotal hn hw => ?_⟩
  obtain rfl : total = s.transmitLen := htotal.trans (transmitLen_eq hcfg.2.1).symm
  have hpos : 0 < s.transmitLen := by
    have hle := le_roundEven (8 + s.payloadLen)
    omega
  obtain ⟨hbuffers, hwire⟩ := sendPrepare_encoded s
  obtain ⟨t, hloop, hcall, hout, hbuf, hlen⟩ := writeLoopStep_outcome (by decide) (prepared_sendPrepare s)
    hpos (wireImage_length _ _) hans hn hw s.cfg.epOut c.word
  have hstep := (hexec.trans (if_neg hP.not_gt)).trans hloop
  rw [List.drop_zero, wireImage_congr (hbuffers .txbuf)] at hcall
  exact ⟨_, t, execEncode_of_le hP, hstep, fun b o => by rw [hbuf, hbuffers], hlen.trans hwire, hcall, hout,
    engineStepWritesOnlyItsRegisters _ s t hstep⟩

/-- A step writes at most the registers of its operation's rule. -/
theorem stepOf_regs {i : Instr} {s t : State} (h : StepOf i s t) : RegsKeptBut (regsWritten i) s t := by
  cases h with
  | quiet hup => exact updates_regs hup
  | call hi u ev rest d before _ after =>
    have hcall := regsKeptBut_logCall hi u ev rest d
    exact regsKeptBut_trans (updates_regs before) (regsKeptBut_trans hcall (updates_regs after))

/-- Settles O44: a chunk call of the loop on the wire image; a later step of SEND is one of BULK_WRITE's. -/
theorem sendChunkStep : Obligations.SendChunkStep := by
  intro s c a rest n hrun hstage hlt hans hn hw
  have hlater : s.ctx.stage ≠ .start := by rw [ctx_of_run hrun, hstage]; decide
  obtain ⟨t, hloop, hcall, hout, hbuf, -⟩ := writeLoopStep_outcome (by decide) (prepared_refl .send s)
    hlt (wireImage_length s _) hans hn hw s.cfg.epOut c.word
  have hstep := (execSend_chunk hrun hstage).trans hloop
  exact ⟨t, hstep, hcall, hout, stepOf_regs (stepOf_execSend_later hlater hstep),
    fun b o => by rw [hbuf], surroundingsKept_exec hstep⟩

end Sys2Proof.Machine
end

section
/-! SUPPORT. RECV's read loop (41_bulk_transport.md R148): what its end leads to, and that it validates
exactly as DECODE does. -/

namespace Sys2Proof.Machine

section Stages
variable {s : State} {c : Ctx} (hrun : s.engine = .run c)
include hrun

theorem execRecv_start (hstage : c.stage = .start) :
    exec .recv s = readLoopStep s.cfg.epIn recvReadDone (chunkCtx c.word 0 s.cfg.rxReadLen) s := by
  simp only [exec, execRecv, ctx_of_run hrun, hstage, Ctx.loop]

theorem execRecv_chunk (hstage : c.stage = .chunk) :
    exec .recv s = readLoopStep s.cfg.epIn recvReadDone (chunkCtx c.word c.cursor c.target) s := by
  simp only [exec, execRecv, ctx_of_run hrun, hstage, ← chunkCtx_of_stage hstage]

theorem execRecv_ackChunk (hstage : c.stage = .ackChunk) :
    exec .recv s = writeLoopStep s.cfg.epOut (ackWire s.cfg) recvAckDone c s := by
  simp only [exec, execRecv, ctx_of_run hrun, hstage]

end Stages

/-! ### The end of the read -/

/-- The start of the acknowledgement of an early FILE_DATA. -/
theorem recvReadDone_ack {got : Nat} {s : State} (he : isEarlyFileData got s = true)
    (ha : s.autoAck = true) :
    recvReadDone got none s = (warn512 8 ((s.setReceived got).flag .earlyFileData)).continueWith
      { word := s.ctx.word, stage := .ackChunk, cursor := 0, target := 8 } := by
  have hmark : markEarly got (s.setReceived got) = (s.setReceived got).flag .earlyFileData :=
    congrArg ((s.setReceived got).flagIf · .earlyFileData) he
  rcases recvReadDone_cases got none s with ⟨_, hstop, -⟩ | ⟨-, -, -, h⟩ | ⟨-, hno, -⟩
  · cases hstop
  · rw [h, hmark, Ctx.loop]
  · simp [he, ha] at hno

/-- Without an acknowledgement the end of the read is DECODE of the bytes received. -/
theorem recvReadDone_decoded {got : Nat} {s : State} (hcfg : s.cfg.WellFormed)
    (hgot : got ≤ s.cfg.bufSize) (hno : (isEarlyFileData got s && s.autoAck) = false) :
    recvReadDone got none s = decoded (s.setReceived got) := by
  rcases recvReadDone_cases got none s with ⟨_, hstop, -⟩ | ⟨-, he, ha, -⟩ | ⟨-, -, h⟩
  · cases hstop
  · simp [he, ha] at hno
  · rw [h, recvValidate_eq, decoded, setReceived_rxLength hcfg hgot, if_neg (by decide), Option.or_none]

@[simp] theorem validate_rxbuf (n : Nat) (s : State) : (validate n s).1.rxbuf = s.rxbuf := by
  obtain ⟨_, _, _, _, _, _, _, h⟩ := validate_frame n s
  rw [h]

theorem recvReadDone_rxbuf (got : Nat) (stop : Stop) (s : State) :
    (recvReadDone got stop s).rxbuf = s.rxbuf := by
  rcases recvReadDone_cases got stop s with ⟨_, -, h⟩ | ⟨-, -, -, h⟩ | ⟨-, -, h⟩ <;> rw [h]
  · rfl
  · rw [continueWith_rxbuf, warn512, flagIf_rxbuf, markEarly_rxbuf, setReceived_rxbuf]
  · rw [recvValidate_eq, endWith_rxbuf, validate_rxbuf, markEarly_rxbuf, setReceived_rxbuf]

/-! ### The bytes of an answer -/

/-- The state in which the bytes of an answer are stored, SHORT_READ flagged where the chunk is short. -/
def State.stored (s : State) (short : Bool) (start : Nat) (bs : List Byte) : State :=
  { s.flagIf short .shortRead with rxbuf := s.rxbuf.write start bs }

theorem stored_frame (s : State) (ev : LinkEvent) (rest : List LinkAnswer) (short : Bool) (start : Nat)
    (bs : List Byte) {v : State} (hv : v = (s.called ev rest).stored short start bs) :
    v.cfg = s.cfg ∧ v.autoAck = s.autoAck ∧ v.ctx = s.ctx ∧ v.status = s.status := by
  subst hv
  exact ⟨flagIf_cfg .., flagIf_autoAck .., flagIf_ctx .., flagIf_status ..⟩

/-- A chunk that is short, or reaches the total, ends the read. -/
theorem afterRead_last {fin : Nat → Stop → State → State} {c : Ctx} {asked : Nat} {bs : List Byte}
    {s : State} (h : bs.length < asked ∨ c.target ≤ c.cursor + bs.length) :
    afterRead fin c asked (.ok bs) s =
      fin (c.cursor + bs.length) none (s.stored (decide (bs.length < asked)) c.cursor bs) := by
  by_cases hshort : bs.length < asked
  · simp only [afterRead, hshort, if_true, decide_true]
    rfl
  · simp only [afterRead, hshort, if_false, (h.resolve_left hshort).not_gt, decide_false]
    rfl

/-- A whole chunk short of the total keeps the read going. -/
theorem afterRead_more {fin : Nat → Stop → State → State} {c : Ctx} {asked : Nat} {bs : List Byte}
    {s : State} (hfull : asked ≤ bs.length) (hmore : c.cursor + bs.length < c.target) :
    afterRead fin c asked (.ok bs) s = State.continueWith { s with rxbuf := s.rxbuf.write c.cursor bs }
      { c with cursor := c.cursor + bs.length } := by
  simp only [afterRead, hfull.not_gt, hmore, if_true, if_false]

theorem afterRead_recv_rxbuf (c : Ctx) (asked : Nat) (bs : List Byte) (s : State) :
    (afterRead recvReadDone c asked (.ok bs) s).rxbuf = s.rxbuf.write c.cursor bs := by
  by_cases h : bs.length < asked ∨ c.target ≤ c.cursor + bs.length
  · rw [afterRead_last h, recvReadDone_rxbuf, State.stored]
  · rw [afterRead_more (by omega) (by omega), continueWith_rxbuf]

/-! ### The read step -/

theorem regsKept_called_continueWith (s : State) (ev : LinkEvent) (rest : List LinkAnswer) (m : Memory) (c : Ctx) :
    RegsKeptBut [.chunks] s (State.continueWith { s.called ev rest with rxbuf := m } c) := by
  intro r hr
  cases r
  case chunks => exact absurd (by decide) hr
  all_goals rfl

/-- RECV's first step, and each step of its read loop, is a step of one loop of RX_READ_LEN bytes. -/
theorem execRecv_reading {s : State} {c : Ctx} {got : Nat} (hrun : s.engine = .run c)
    (h : (c.stage = .start ∧ got = 0) ∨ (c.stage = .chunk ∧ got = c.cursor ∧ c.target = s.cfg.rxReadLen)) :
    exec .recv s = readLoopStep s.cfg.epIn recvReadDone (chunkCtx c.word got s.cfg.rxReadLen) s := by
  rcases h with ⟨hstage, rfl⟩ | ⟨hstage, rfl, htotal⟩
  · exact execRecv_start hrun hstage
  · rw [execRecv_chunk hrun hstage, htotal]

/-- With RX_READ_LEN 0 RECV is DECODE of no bytes. -/
theorem execRecv_empty {s : State} {c : Ctx} (hcfg : s.cfg.WellFormed) (hrun : s.engine = .run c)
    (hstage : c.stage = .start) (hzero : s.cfg.rxReadLen = 0) :
    exec .recv s = .next (raise .tooShort ((s.setReceived 0).flag .tooShort)) := by
  have hshort : 0 < s.cfg.hdrLen := by rw [hcfg.2.1]; decide
  have hnoAck : (isEarlyFileData 0 s && s.autoAck) = false := by
    rw [isEarlyFileData_of_lt hshort, Bool.false_and]
  have hlen := setReceived_rxLength hcfg (Nat.zero_le _)
  rw [execRecv_start hrun hstage, hzero, readLoopStep, if_neg (Nat.lt_irrefl 0),
    recvReadDone_decoded hcfg (Nat.zero_le _) hnoAck, decoded_of_tooShort (hlen.trans_lt hshort)]

/-- A receive of no bytes: DECODE's TOO_SHORT, with both counts 0. -/
theorem recv_empty_frame (s : State) :
    EndedWith 0x05 s (raise .tooShort ((s.setReceived 0).flag .tooShort)) ∧
    RegsKeptBut [.status, .flags, .sticky, .rxCount, .resultCount] s
      (raise .tooShort ((s.setReceived 0).flag .tooShort)) ∧
    BytesKept s (raise .tooShort ((s.setReceived 0).flag .tooShort)) := by
  refine ⟨⟨rfl, rfl⟩, fun r hr => ?_, fun b o => by rw [raise_buffer, flag_buffer, setReceived_buffer]⟩
  cases r
  case status | flags | sticky | rxCount | resultCount => exact absurd (by decide) hr
  all_goals rfl

/-- A link error ends RECV as it ends BULK_READ: no acknowledgement and no validation follow. -/
theorem recv_readError {s t : State} {word : Word} {got total n : Nat} {e : Word} {ev : LinkEvent}
    {rest : List LinkAnswer}
    (ht : t = afterRead recvReadDone (chunkCtx word got total) n (.err e) (s.called ev rest)) :
    ReadOutcome word got total n (.err e) s t ∧
    RegsKeptBut [.status, .flags, .sticky, .rxCount, .resultCount, .linkErr, .chunks] s t := by
  subst ht
  refine ⟨readOutcome_afterRead s word got total n (.err e) ev rest, fun r hr => ?_⟩
  cases r
  case status | flags | sticky | rxCount | resultCount | linkErr | chunks => exact absurd (by decide) hr
  all_goals rfl

/-- What changes where the acknowledgement starts: the flags of the recognition and of the 512 test. -/
theorem ackStart_frame (u : State) (c : Ctx) :
    FlagsAdded (.earlyFileData :: warnFlags u 8) u ((warn512 8 (u.flag .earlyFileData)).continueWith c) ∧
    BytesKept u ((warn512 8 (u.flag .earlyFileData)).continueWith c) ∧
    RegsKeptBut [.flags, .sticky] u ((warn512 8 (u.flag .earlyFileData)).continueWith c) := by
  refine ⟨?_, fun b o => ?_, fun r hr => ?_⟩
  · have hwarn := flagsAdded_trans (flagsAdded_flag u .earlyFileData) (flagsAdded_warn512 8 _)
    exact flagsAdded_congr hwarn rfl rfl rfl rfl
  · rw [continueWith_buffer, warn512, flagIf_buffer, flag_buffer]
  · cases r
    case flags | sticky => exact absurd (by decide) hr
    all_goals simp [regValue, warn512]

/-- Where the read ends: u is the state with the last bytes stored and both counts reported. -/
theorem recvReadDone_end {v u : State} {got : Nat} (hcfg : v.cfg.WellFormed) (hgot : got ≤ v.cfg.bufSize)
    (hu : u = v.setReceived got) :
    (8 ≤ got → u.rxbuf.bytes 4 4 = wireCmd v.cfg.cmdFileData → v.autoAck = true →
      (recvReadDone got none v).engine =
        .run { word := v.ctx.word, stage := .ackChunk, cursor := 0, target := 8 } ∧
      (recvReadDone got none v).status = v.status ∧
      FlagsAdded (.earlyFileData :: warnFlags v 8) u (recvReadDone got none v) ∧
      BytesKept u (recvReadDone got none v) ∧
      RegsKeptBut [.flags, .sticky] u (recvReadDone got none v)) ∧
    (¬(8 ≤ got ∧ u.rxbuf.bytes 4 4 = wireCmd v.cfg.cmdFileData ∧ v.autoAck = true) →
      exec .decode u = .next (recvReadDone got none v)) := by
  have h8 : v.cfg.hdrLen = 8 := hcfg.2.1
  have hearly : isEarlyFileData got v = true ↔ 8 ≤ got ∧ v.rxbuf.bytes 4 4 = wireCmd v.cfg.cmdFileData := by
    simp [isEarlyFileData, h8]
  subst hu
  refine ⟨fun hn hcmd ha => ?_, fun hno => ?_⟩
  · rw [recvReadDone_ack (hearly.mpr ⟨hn, hcmd⟩) ha]
    exact ⟨rfl, flagIf_status .., ackStart_frame (v.setReceived got) _⟩
  · have hnot : (isEarlyFileData got v && v.autoAck) = false := by
      rw [Bool.eq_false_iff, Ne, Bool.and_eq_true, hearly, and_assoc]
      exact hno
    rw [recvReadDone_decoded hcfg hgot hnot]
    exact execDecode_of_le ((setReceived_rxLength hcfg hgot).trans_le hgot)

/-- Settles O45: the read loop's call; an error ends it as in BULK_READ, a whole chunk goes on, and the end
of the read starts the acknowledgement or is DECODE of the bytes received. -/
theorem recvReadStep : Obligations.RecvReadStep := by
  refine ⟨fun s c hcfg hrun hstage hzero => ?_,
    fun s c got n a rest hcfg hrun hread hlt hans hn hw => ?_⟩
  · have hstep := execRecv_empty hcfg hrun hstage hzero
    obtain ⟨hend, hregs, hbytes⟩ := recv_empty_frame s
    exact ⟨_, hstep, hend, flagsAdded_congr (flagsAdded_flag s .tooShort) rfl rfl rfl rfl, rfl, rfl, hregs,
      hbytes, ⟨rfl, rfl, rfl⟩, surroundingsKept_exec hstep⟩
  obtain ⟨ev, hev, hloop, hcall⟩ := readLoopStep_call (by decide) endUpdates_recvReadDone
    (c := chunkCtx c.word got s.cfg.rxReadLen) hlt hans hn hw s.cfg.epIn
  generalize ht : afterRead recvReadDone _ n a _ = t at hloop hcall
  have hstep := (execRecv_reading hrun hread).trans hloop
  refine ⟨t, hstep, hev ▸ hcall, surroundingsKept_exec hstep, fun e he => ?_, fun bs hbs => ?_⟩
  · obtain ⟨⟨hend, herr, hrx, hres, hflags, hbytes⟩, hregs⟩ := recv_readError (he ▸ ht.symm)
    exact ⟨hend, herr, hrx, hres, hflags, hbytes, hregs⟩
  subst hbs
  have hgot : got + bs.length ≤ s.cfg.bufSize := by
    obtain ⟨⟨-, -, -, hread, -⟩, -⟩ := hcfg
    have hle : bs.length ≤ n := by simpa [readWithin] using hw
    omega
  have hrx : t.rxbuf = s.rxbuf.write got bs := ht ▸ afterRead_recv_rxbuf _ n bs (s.called ev rest)
  refine ⟨hrx ▸ bytes_write_same _ _ _, fun o ho => hrx ▸ read_write_outside _ _ _ _ ho,
    fun hfull hmore => ?_, fun hlast u hu => ?_⟩
  · rw [← ht, afterRead_more hfull.ge hmore]
    exact ⟨rfl, rfl, flagsAdded_of_eq rfl rfl, bytesKeptBut_rxbuf rfl rfl rfl,
      regsKept_called_continueWith s _ _ _ _⟩
  · rw [← ht, afterRead_last hlast]
    have hu' : u = ((s.called ev rest).stored (decide (bs.length < n)) got bs).setReceived
        (got + bs.length) := by
      rw [hu, hev]
      by_cases hshort : bs.length < n
      · rw [if_pos hshort, decide_eq_true hshort]; rfl
      · rw [if_neg hshort, decide_eq_false hshort]; rfl
    generalize hv : (s.called ev rest).stored (decide (bs.length < n)) got bs = v at *
    obtain ⟨hcfg', hack, hctx, hstatus⟩ := stored_frame s ev rest _ got bs hv.symm
    have hend := recvReadDone_end (v := v) (by rwa [hcfg']) (by rwa [hcfg']) hu'
    simpa only [warnFlags, hcfg', hack, hctx, ctx_of_run hrun, hstatus] using hend

end Sys2Proof.Machine
end

section
/-! SUPPORT. RECV's acknowledgement loop (41_bulk_transport.md R148, R149) and the validation behind it,
which reads none of what the loop has changed. -/

namespace Sys2Proof.Machine

/-! ### Validations side by side -/

/-- Two states alike in everything a validation reads and writes but FLAGS and STICKY. -/
structure SameReceipt (s s' : State) : Prop where
  cfg : s'.cfg = s.cfg
  config : s'.config = s.config
  rxbuf : s'.rxbuf = s.rxbuf
  rxpkt : s'.rxpkt = s.rxpkt
  rxLen : s'.rxLen = s.rxLen
  rxCmd : s'.rxCmd = s.rxCmd
  rxCrcEmbedded : s'.rxCrcEmbedded = s.rxCrcEmbedded
  rxCrcComputed : s'.rxCrcComputed = s.rxCrcComputed

/-- What leads from s to t leads from s' to t': the receipts stay alike, and the same flags are added. -/
structure SideBySide (s s' t t' : State) : Prop where
  same : SameReceipt t t'
  flags : ∃ fs, FlagsAdded fs s t ∧ FlagsAdded fs s' t'

theorem sideBySide_flag {s s' t t' : State} (h : SideBySide s s' t t') (f : Flag) :
    SideBySide s s' (t.flag f) (t'.flag f) := by
  obtain ⟨⟨h1, h2, h3, h4, h5, h6, h7, h8⟩, fs, hflags, hflags'⟩ := h
  exact ⟨⟨h1, h2, h3, h4, h5, h6, h7, h8⟩, fs ++ [f], flagsAdded_snoc hflags f, flagsAdded_snoc hflags' f⟩

section Receipt
variable {s s' : State} (h : SameReceipt s s')
include h

theorem sideBySide_refl : SideBySide s s' s s' := ⟨h, [], flagsAdded_refl s, flagsAdded_refl s'⟩

theorem sameReceipt_inputs : declaredLen s' = declaredLen s ∧ s'.crcMode = s.crcMode ∧
    s'.shortAccept = s.shortAccept := by
  simp only [declaredLen, h.rxbuf, State.crcMode, State.shortAccept, h.config, and_self]

theorem sideBySide_recoverPacket (n : Nat) :
    SideBySide s s' (recoverPacket n s) (recoverPacket n s') := by
  have himage : recoveredImage n s' = recoveredImage n s := by
    simp only [recoveredImage, swapWindow, h.rxbuf, h.cfg, (sameReceipt_inputs h).1]
  refine ⟨⟨h.cfg, h.config, h.rxbuf, congrArg Memory.cleared himage, ?_, congrArg (rdBe32 · 4) himage,
    congrArg (rdBe16 · 2) himage, rfl⟩, [], flagsAdded_recoverPacket n s, flagsAdded_recoverPacket n s'⟩
  exact congrArg (BitVec.ofNat 16) (sameReceipt_inputs h).1

theorem sameReceipt_withComputed (d : Nat) : SameReceipt (withComputed d s) (withComputed d s') := by
  have hcrc : (withComputed d s').rxCrcComputed = (withComputed d s).rxCrcComputed := by
    simp only [withComputed, h.cfg, h.rxpkt]
  exact ⟨h.cfg, h.config, h.rxbuf, h.rxpkt, h.rxLen, h.rxCmd, h.rxCrcEmbedded, hcrc⟩

end Receipt

theorem sideBySide_compareCrc {s s' t t' : State} (h : SideBySide s s' t t') (d : Nat) :
    SideBySide s s' (compareCrc d t).1 (compareCrc d t').1 ∧ (compareCrc d t').2 = (compareCrc d t).2 := by
  obtain ⟨hsame, fs, hflags, hflags'⟩ := h
  have hcom := sameReceipt_withComputed hsame d
  have hstart : SideBySide s s' (withComputed d t) (withComputed d t') :=
    ⟨hcom, fs, flagsAdded_congr hflags rfl rfl rfl rfl, flagsAdded_congr hflags' rfl rfl rfl rfl⟩
  have hchk := sideBySide_flag hstart .crcChecked
  rw [compareCrc_eq, compareCrc_eq, hcom.rxCrcComputed, hsame.rxCrcEmbedded, (sameReceipt_inputs hsame).2.1]
  split
  · exact ⟨sideBySide_flag hchk _, rfl⟩
  · split
    · exact ⟨sideBySide_flag hchk _, rfl⟩
    · exact ⟨sideBySide_flag (sideBySide_flag hchk _) _, rfl⟩

/-- A validation of the same receipt reports the same, flags the same and raises the same. -/
theorem sideBySide_validate {s s' : State} (h : SameReceipt s s') (n : Nat) :
    SideBySide s s' (validate n s).1 (validate n s').1 ∧ (validate n s').2 = (validate n s).2 := by
  have hrec := sideBySide_recoverPacket h n
  have hdecl := (sameReceipt_inputs h).1
  obtain ⟨-, hmode, -⟩ := sameReceipt_inputs hrec.same
  obtain ⟨-, -, hshort⟩ := sameReceipt_inputs (sideBySide_flag hrec .shortPacket).same
  unfold validate
  simp only [h.cfg, hdecl, hmode, hshort]
  split
  · exact ⟨sideBySide_flag (sideBySide_refl h) _, rfl⟩
  · split
    · exact ⟨sideBySide_flag hrec _, rfl⟩
    · split
      · split
        · exact ⟨sideBySide_flag (sideBySide_flag hrec _) _, rfl⟩
        · exact ⟨sideBySide_flag hrec _, rfl⟩
      · split
        · exact ⟨sideBySide_flag hrec _, rfl⟩
        · exact sideBySide_compareCrc hrec _

/-! ### The end of the acknowledgement -/

/-- How RECV ends behind its acknowledgement loop: the flags `pre`, and what a validation of the bytes
received gives; its error comes first, then `e` (60_exceptions.md R184). -/
def Validated (pre : List Flag) (e : Option ErrCode) (s t : State) : Prop :=
  ∃ fs, FlagsAdded (pre ++ fs) s t ∧ FlagsAdded fs s (validate s.rxLength s).1 ∧
    t.rxpkt = (validate s.rxLength s).1.rxpkt ∧
    t.rxLen = (validate s.rxLength s).1.rxLen ∧ t.rxCmd = (validate s.rxLength s).1.rxCmd ∧
    t.rxCrcEmbedded = (validate s.rxLength s).1.rxCrcEmbedded ∧
    t.rxCrcComputed = (validate s.rxLength s).1.rxCrcComputed ∧
    ((validate s.rxLength s).2 = none → EndedAs e s t) ∧
    (∀ c, (validate s.rxLength s).2 = some c → EndedWith c.code s t)

theorem validated_recvValidate {pre : List Flag} {s u : State} (hsame : SameReceipt s u)
    (hflags : FlagsAdded pre s u) (hstatus : u.status = s.status) (failed : Bool) :
    Validated pre (if failed then some .ack else none) s (recvValidate s.rxLength failed u) := by
  obtain ⟨⟨hreport, fs, hfs, hfs'⟩, herror⟩ := sideBySide_validate hsame s.rxLength
  have hst : (validate s.rxLength u).1.status = s.status := (validate_status _ _).trans hstatus
  rw [recvValidate_eq, herror]
  refine ⟨fs, flagsAdded_congr (flagsAdded_trans hflags hfs') rfl rfl (endWith_flags ..) (endWith_sticky ..),
    hfs, (endWith_rxpkt ..).trans hreport.rxpkt, (endWith_rxLen ..).trans hreport.rxLen,
    (endWith_rxCmd ..).trans hreport.rxCmd, (endWith_rxCrcEmbedded ..).trans hreport.rxCrcEmbedded,
    (endWith_rxCrcComputed ..).trans hreport.rxCrcComputed, fun hnone => ?_, fun c hc => ?_⟩
  · rw [hnone]
    exact endedAs_endWith _ hst
  · rw [hc]
    exact endedAs_endWith (some c) hst

theorem recvAckDone_sent (stop : Stop) (s : State) :
    recvAckDone 8 stop s = recvValidate s.rxLength false (s.flag .ackSent) := rfl

theorem recvAckDone_short {sent : Nat} (h : sent < 8) (stop : Stop) (s : State) :
    recvAckDone sent stop s = recvValidate s.rxLength true (s.flag .ackFail) := if_neg h.ne

/-- An acknowledgement that stopped short, at a state that differs from s only outside the receipt. -/
theorem validated_ackFail {s u : State} (hsame : SameReceipt s u) (hflags : FlagsAdded [] s u)
    (hstatus : u.status = s.status) (hlen : u.rxLength = s.rxLength) (f : Flag) {sent : Nat}
    (hsent : sent < 8) (stop : Stop) :
    Validated [.ackFail, .shortWrite, f] (some .ack) s
      (recvAckDone sent stop ((u.flag f).flag .shortWrite)) := by
  have hadd := flagsAdded_snoc (flagsAdded_flag_flag hflags f .shortWrite) .ackFail
  obtain ⟨h1, h2, h3, h4, h5, h6, h7, h8⟩ := hsame
  rw [recvAckDone_short hsent, flag_rxLength, flag_rxLength, hlen]
  exact validated_recvValidate (u := ((u.flag f).flag .shortWrite).flag .ackFail)
    ⟨h1, h2, h3, h4, h5, h6, h7, h8⟩ (flagsAdded_perm hadd fun g => by simp; tauto) hstatus true

/-! ### What the loop leaves alone -/

/-- What RECV's acknowledgement and the validation behind it leave: the counts and the buffers but RXPKT.
LINK_ERR holds `err`. -/
structure CountsKept (err : Word) (s t : State) : Prop where
  rxCount : t.rxCount = s.rxCount
  resultCount : t.resultCount = s.resultCount
  linkErr : t.linkErr = err
  txbuf : t.txbuf = s.txbuf
  rxbuf : t.rxbuf = s.rxbuf

theorem countsKept_recvValidate {err : Word} {s u : State} (h : CountsKept err s u) (n : Nat)
    (failed : Bool) : CountsKept err s (recvValidate n failed u) := by
  obtain ⟨hrx, hres, herr, htx, hrxbuf⟩ := h
  obtain ⟨_, _, _, _, _, _, _, hval⟩ := validate_frame n u
  rw [recvValidate_eq, hval]
  constructor <;> simpa

theorem countsKept_flag {err : Word} {s u : State} (h : CountsKept err s u) (f : Flag) :
    CountsKept err s (u.flag f) := by
  obtain ⟨hrx, hres, herr, htx, hrxbuf⟩ := h
  exact ⟨hrx, hres, herr, htx, hrxbuf⟩

theorem countsKept_recvAckDone {err : Word} {s u : State} (h : CountsKept err s u) (sent : Nat)
    (stop : Stop) : CountsKept err s (recvAckDone sent stop u) := by
  unfold recvAckDone
  split
  · exact countsKept_recvValidate (countsKept_flag h .ackSent) _ _
  · exact countsKept_recvValidate (countsKept_flag h .ackFail) _ _

/-- LINK_ERR after an answer: the error's value, or as it was. -/
def linkErrAfter (a : WriteAnswer) (s : State) : Word :=
  match a with
  | .err e => e
  | .ok _ => s.linkErr

theorem countsKept_afterWrite (c : Ctx) (a : WriteAnswer) (s : State) (ev : LinkEvent)
    (rest : List LinkAnswer) :
    CountsKept (linkErrAfter a s) s (afterWrite recvAckDone c a (s.called ev rest)) := by
  have hcalled : CountsKept s.linkErr s (s.called ev rest) := ⟨rfl, rfl, rfl, rfl, rfl⟩
  rcases afterWrite_cases recvAckDone c a (s.called ev rest) with
    ⟨e, rfl, h⟩ | ⟨rfl, h⟩ | ⟨k, rfl, -, -, h⟩ | ⟨k, rfl, -, -, h⟩ <;> rw [h]
  · have herr : CountsKept e s { s.called ev rest with linkErr := e } := ⟨rfl, rfl, rfl, rfl, rfl⟩
    exact countsKept_recvAckDone (countsKept_flag (countsKept_flag herr .ioError) .shortWrite) _ _
  · exact countsKept_recvAckDone (countsKept_flag (countsKept_flag hcalled .zeroXfer) .shortWrite) _ _
  · exact ⟨rfl, rfl, rfl, rfl, rfl⟩
  · exact countsKept_recvAckDone hcalled _ _

/-! ### The step -/

/-- Settles O46: the loop's call; it goes on, or ends with ACK_SENT or ACK_FAIL and the validation. -/
theorem recvAckStep : Obligations.RecvAckStep := by
  intro s c a rest n hrun hstage hlt htotal hans hn hw
  obtain ⟨ev, hev, hloop, hcall⟩ := writeLoopStep_call (by decide) endUpdates_recvAckDone .refl
    (c := c) (htotal ▸ hlt) ((ackWire_length s.cfg).symm ▸ htotal.le) hans (htotal ▸ hn) hw s.cfg.epOut
  have hstep := (execRecv_ackChunk hrun hstage).trans hloop
  obtain ⟨hrx, hres, herr, htx, hrxbuf⟩ := countsKept_afterWrite c a s ev rest
  refine ⟨_, hstep, hev ▸ hcall, hres, hrx, surroundingsKept_exec hstep, fun b o hb => ?_,
    fun k ha hk hmore => ?_, fun k ha hend => ?_, fun e ha => ?_, fun k ha => ?_, fun hfail => ?_⟩
  · cases b with
    | txbuf => exact congrArg (·.read o) htx
    | rxbuf => exact congrArg (·.read o) hrxbuf
    | rxpkt => exact absurd rfl hb
  · rw [ha, afterWrite_more hk (htotal ▸ hmore), hstage, htotal]
    exact ⟨rfl, rfl, flagsAdded_of_eq rfl rfl, fun b o => by cases b <;> rfl,
      regsKept_called_continueWith s ev rest s.rxbuf _⟩
  · have hk : c.cursor + k = 8 := by
      have hle : k ≤ n := by simpa [ha, writeWithin] using hw
      omega
    rw [ha, afterWrite_whole (by omega) (htotal ▸ hk.ge), hk, recvAckDone_sent]
    exact validated_recvValidate (s := s) (u := (s.called ev rest).flag .ackSent)
      ⟨rfl, rfl, rfl, rfl, rfl, rfl, rfl, rfl⟩
      (flagsAdded_congr (flagsAdded_flag s .ackSent) rfl rfl rfl rfl) rfl false
  · exact herr.trans (by rw [ha, linkErrAfter])
  · exact herr.trans (by rw [ha, linkErrAfter])
  · rcases hfail with ha | ⟨e, ha⟩
    · rw [if_pos ha, ha]
      exact validated_ackFail (s := s) (u := s.called ev rest) ⟨rfl, rfl, rfl, rfl, rfl, rfl, rfl, rfl⟩
        (flagsAdded_of_eq rfl rfl) rfl rfl .zeroXfer hlt (some .zero)
    · rw [if_neg (by simp [ha]), ha]
      exact validated_ackFail (s := s) (u := { s.called ev rest with linkErr := e })
        ⟨rfl, rfl, rfl, rfl, rfl, rfl, rfl, rfl⟩ (flagsAdded_of_eq rfl rfl) rfl rfl .ioError hlt (some .io)

/-! ### The acknowledgement packet -/

/-- A register of at most 32 bits keeps its value where the word it reads as does. -/
theorem setWidth_inj {w : Nat} (hw : w ≤ 32) {x y : BitVec w} (h : x.setWidth 32 = y.setWidth 32) :
    x = y := by
  have hnat := congrArg BitVec.toNat h
  rw [BitVec.toNat_setWidth_of_le hw, BitVec.toNat_setWidth_of_le hw] at hnat
  exact BitVec.eq_of_toNat_eq hnat

/-- Settles O47: the bytes by evaluation; the frame is RECV's lists of registers and buffers (O11, O12). -/
theorem acknowledgementPacket : Obligations.AcknowledgementPacket := by
  refine ⟨fun p => ⟨rfl, rfl, ackWire_length p⟩, by decide +kernel, by decide +kernel, fun s t h => ?_⟩
  have hregs := (engineStepWritesOnlyItsRegisters .recv s t h).1
  have hbuf := (engineStepWritesOnlyItsBuffers .recv s t h).1
  exact ⟨hregs .txCmd (by decide), setWidth_inj (by decide) (hregs .txPlen (by decide)),
    setWidth_inj (by decide) (hregs .txWireLen (by decide)), fun o => hbuf .txbuf o (by decide)⟩

end Sys2Proof.Machine
end

section
/-! SUPPORT. A BULK_WRITE over a link that takes whole chunks (41_bulk_transport.md R150): the induction over
its chunk steps. -/

namespace Sys2Proof.Machine

/-! ### One step -/

/-- A BULK_WRITE of `total` bytes that has moved `moved` of them: its first step, or a chunk step. -/
inductive Writing (word : Word) : Nat → Nat → State → Prop
  | start {s : State} (hcfg : s.cfg.WellFormed) (hN : s.xferCount ≤ s.cfg.bufSize)
      (hrun : s.engine = .run { word := word, stage := .start, cursor := 0, target := 0 }) :
      Writing word 0 s.xferCount s
  | chunk {s : State} {moved total : Nat} (hrun : s.engine = .run (chunkCtx word moved total)) :
      Writing word moved total s

theorem engine_of_writing {word : Word} {moved total : Nat} {s : State} (h : Writing word moved total s) :
    ∃ c, s.engine = .run c ∧ c.word = word := by
  cases h with
  | start _ _ hrun => exact ⟨_, hrun, rfl⟩
  | chunk hrun => exact ⟨_, hrun, rfl⟩

/-- Either step calls the link for the next chunk, and the answer leads on alike (O39, O40). -/
theorem writing_call {word : Word} {moved total n : Nat} {s : State} {a : WriteAnswer}
    {rest : List LinkAnswer} (h : Writing word moved total s) (hlt : moved < total)
    (hans : s.answers = .write a :: rest) (hn : n = min s.cfg.chunkMax (total - moved))
    (hw : writeWithin n a = true) :
    ∃ t pre, exec .bulkWrite s = .next t ∧
      CallMade (.write s.cfg.epOut (s.txbuf.bytes moved n) s.timeout (some a)) rest s t ∧
      WriteOutcome word moved total a pre s t ∧ BytesKept s t ∧ SurroundingsKept s t := by
  cases h with
  | start hcfg hN hrun =>
    obtain ⟨-, -, hfirst⟩ := bulkWriteFirstStep s _ hcfg hrun rfl
    obtain ⟨t, hstep, hcall, hout, -, hkept⟩ := hfirst hlt hN a rest n hans hn hw
    exact ⟨t, _, hstep, hcall, hout, hkept⟩
  | chunk hrun =>
    obtain ⟨t, hstep, hcall, hout, -, hkept⟩ := bulkWriteChunkStep s _ a rest n hrun rfl hlt hans hn hw
    exact ⟨t, _, hstep, hcall, hout, hkept⟩

/-- A step whose answer takes the whole chunk: it goes on behind the chunk, or ends. -/
theorem writing_wholeChunk {word : Word} {moved total n : Nat} {s : State} {rest : List LinkAnswer}
    (h : Writing word moved total s) (hpos : 0 < n) (hans : s.answers = .write (.ok n) :: rest)
    (hn : n = min s.cfg.chunkMax (total - moved)) :
    ∃ t, exec .bulkWrite s = .next t ∧
      CallMade (.write s.cfg.epOut (s.txbuf.bytes moved n) s.timeout (some (.ok n))) rest s t ∧
      BytesKept s t ∧ SurroundingsKept s t ∧
      (moved + n < total → Writing word (moved + n) total t ∧ t.status = s.status) ∧
      (total ≤ moved + n → EndedNormally s t ∧ t.resultCount = BitVec.ofNat 17 (moved + n)) := by
  obtain ⟨t, pre, hstep, hcall, hout, hbytes, hkept⟩ :=
    writing_call h (by omega) hans hn (by simp [writeWithin])
  obtain ⟨k, rfl⟩ := Nat.exists_eq_add_one_of_ne_zero hpos.ne'
  obtain ⟨-, -, hmore, hend⟩ := hout
  refine ⟨t, hstep, hcall, hbytes, hkept, fun hlt => ?_, hend⟩
  obtain ⟨hengine, hstatus, -⟩ := hmore hlt
  exact ⟨.chunk hengine, hstatus⟩

/-! ### The run -/

/-- What the steps of a whole BULK_WRITE from s on come to: `calls`, newest first, moved the bytes from
`moved` on. -/
structure WrittenOut (moved total : Nat) (s t : State) (calls : List LinkEvent) : Prop where
  ended : EndedNormally s t
  log : t.linkLog = calls ++ s.linkLog
  bytes : (calls.reverse.map bytesTaken).flatten = s.txbuf.bytes moved (total - moved)
  count : t.resultCount.toNat = total
  answers : t.answers = []
  kept : BytesKept s t

theorem bytes_of_bytesKept {s t : State} (h : BytesKept s t) (a n : Nat) :
    t.txbuf.bytes a n = s.txbuf.bytes a n :=
  bytes_congr _ _ a n fun i _ => h .txbuf (a + i)

theorem bytesTaken_whole (ep : Byte) (m : Memory) (a n : Nat) (timeout : Word) :
    bytesTaken (.write ep (m.bytes a n) timeout (some (.ok n))) = m.bytes a n :=
  List.take_of_length_le (bytes_length m a n).le

/-- The last call. -/
theorem writtenOut_last {moved total n : Nat} {s t : State} (hn : n = total - moved) (hle : moved ≤ total)
    (htotal : total < 2 ^ 17)
    (hcall : CallMade (.write s.cfg.epOut (s.txbuf.bytes moved n) s.timeout (some (.ok n))) [] s t)
    (hend : EndedNormally s t) (hcount : t.resultCount = BitVec.ofNat 17 (moved + n))
    (hbytes : BytesKept s t) :
    WrittenOut moved total s t
      [.write s.cfg.epOut (s.txbuf.bytes moved n) s.timeout (some (.ok n))] := by
  obtain ⟨hlog, -, hanswers, -⟩ := hcall
  refine ⟨hend, hlog, ?_, ?_, hanswers, hbytes⟩
  · simp [bytesTaken_whole, hn]
  · rw [hcount, BitVec.toNat_ofNat]
    omega

/-- A call in front of a run that goes on behind its chunk. -/
theorem writtenOut_cons {moved total n : Nat} {s t u : State} {rest : List LinkAnswer}
    {calls : List LinkEvent} (hlt : moved + n < total)
    (hcall : CallMade (.write s.cfg.epOut (s.txbuf.bytes moved n) s.timeout (some (.ok n))) rest s t)
    (hstatus : t.status = s.status) (hbytes : BytesKept s t)
    (h : WrittenOut (moved + n) total t u calls) :
    WrittenOut moved total s u
      (calls ++ [.write s.cfg.epOut (s.txbuf.bytes moved n) s.timeout (some (.ok n))]) := by
  obtain ⟨⟨hidle, hended⟩, hlog, hmoved, hcount, hanswers, hkept⟩ := h
  refine ⟨⟨hidle, by rw [hended, hstatus]⟩, ?_, ?_, hcount, hanswers,
    fun b o => (hkept b o).trans (hbytes b o)⟩
  · rw [hlog, hcall.1, List.append_assoc, List.singleton_append]
  · have hsplit : total - moved = n + (total - (moved + n)) := by omega
    rw [List.reverse_append, List.map_append, List.flatten_append, hmoved, hsplit, bytes_add,
      bytes_of_bytesKept hbytes]
    simp [bytesTaken_whole]

theorem run_succ_of_next (M : Host.Core) {s t : M.State} (h : M.step s = .next t) (m : Nat) :
    M.run (m + 1) s = M.run m t := by
  rw [Host.Core.run, h]

/-- One step of a BULK_WRITE with no turn scheduled, and the run behind it. -/
theorem run_succ_writing {word : Word} {moved total : Nat} {s t : State} (h : Writing word moved total s)
    (hword : decode word = .ok .bulkWrite) (hsched : s.schedule = [])
    (hstep : exec .bulkWrite s = .next t) (m : Nat) :
    Sys2Proof.core.run (m + 1) s = Sys2Proof.core.run m t := by
  obtain ⟨c, hrun, rfl⟩ := engine_of_writing h
  have hnext : Sys2Proof.core.step s = .next t :=
    ((stepRunsDecodedOperation s c _ hrun hword).1 hsched).trans hstep
  exact run_succ_of_next Sys2Proof.core hnext m

theorem wholeChunks_zero (size fuel : Nat) : wholeChunks size fuel 0 = [] := by
  cases fuel <;> rfl

theorem wholeChunks_pos {size fuel n : Nat} (hn : 0 < n) (hfuel : n ≤ fuel) :
    wholeChunks size fuel n =
      .write (.ok (min size n)) :: wholeChunks size (fuel - 1) (n - min size n) := by
  obtain ⟨k, rfl⟩ := Nat.exists_eq_add_one_of_ne_zero (hn.trans_le hfuel).ne'
  exact if_neg hn.ne'

/-- A BULK_WRITE with bytes left on a link that takes whole chunks, no turn but the engine's waiting. -/
structure OnWholeLink (word : Word) (size moved total : Nat) (s : State) : Prop where
  writing : Writing word moved total s
  more : moved < total
  chunkMax : s.cfg.chunkMax = size
  schedule : s.schedule = []
  answers : ∃ fuel, total - moved ≤ fuel ∧ s.answers = wholeChunks size fuel (total - moved)

/-- A step of it: the chunk goes out whole, and what follows is the same again, or the end. -/
theorem onWholeLink_step {word : Word} {size moved total : Nat} {s : State}
    (h : OnWholeLink word size moved total s) (hsize : 0 < size) {n : Nat}
    (hn : n = min size (total - moved)) :
    ∃ t rest, exec .bulkWrite s = .next t ∧
      CallMade (.write s.cfg.epOut (s.txbuf.bytes moved n) s.timeout (some (.ok n))) rest s t ∧
      BytesKept s t ∧
      (moved + n < total → OnWholeLink word size (moved + n) total t ∧ t.status = s.status) ∧
      (total ≤ moved + n →
        rest = [] ∧ EndedNormally s t ∧ t.resultCount = BitVec.ofNat 17 (moved + n)) := by
  obtain ⟨hwriting, hlt, hchunk, hsched, fuel, hfuel, hans⟩ := h
  rw [wholeChunks_pos (by omega) hfuel, ← hn] at hans
  obtain ⟨t, hstep, hcall, hbytes, ⟨hcfg, hsched', -⟩, hmore, hend⟩ :=
    writing_wholeChunk hwriting (by omega) hans (hchunk ▸ hn)
  have ⟨_, _, hanswers, _⟩ := hcall
  refine ⟨t, _, hstep, hcall, hbytes, fun hlt' => ?_, fun hle => ⟨?_, hend hle⟩⟩
  · obtain ⟨hnext, hstatus⟩ := hmore hlt'
    refine ⟨⟨hnext, hlt', hcfg ▸ hchunk, hsched'.trans hsched, fuel - 1, by omega, ?_⟩, hstatus⟩
    rw [hanswers, Nat.sub_sub]
  · have hnone : total - moved - n = 0 := by omega
    rw [hnone, wholeChunks_zero]

/-- The chunk steps of a BULK_WRITE run out in ceil((total − moved) / size) steps, one call each. -/
theorem run_onWholeLink {word : Word} (hword : decode word = .ok .bulkWrite) {size total : Nat}
    (hsize : 0 < size) (htotal : total < 2 ^ 17) (m : Nat) {moved : Nat} {s : State}
    (h : OnWholeLink word size moved total s) (hm : m = (total - moved + size - 1) / size) :
    ∃ t calls, Sys2Proof.core.run m s = .next t ∧ calls.length = m ∧
      WrittenOut moved total s t calls := by
  induction m generalizing moved s with
  | zero =>
    have hlt := h.more
    have hdiv : 0 < (total - moved + size - 1) / size := Nat.div_pos (by omega) hsize
    omega
  | succ m ih =>
    have hlt := h.more
    obtain ⟨t, rest, hstep, hcall, hbytes, hmore, hend⟩ := onWholeLink_step h hsize rfl
    have hrun := run_succ_writing h.writing hword h.schedule hstep m
    by_cases hlast : total - moved ≤ size
    · rw [min_eq_right hlast] at hcall hend
      obtain ⟨rfl, hended, hcount⟩ := hend (by omega)
      obtain rfl : m = 0 := by
        have hdiv : (total - moved + size - 1) / size = 1 := Nat.div_eq_of_lt_le (by omega) (by omega)
        omega
      exact ⟨t, _, hrun, rfl, writtenOut_last rfl hlt.le htotal hcall hended hcount hbytes⟩
    · rw [min_eq_left (by omega)] at hcall hmore
      obtain ⟨hnext, hstatus⟩ := hmore (by omega)
      have hdiv : m = (total - (moved + size) + size - 1) / size := by
        have hsplit : total - moved + size - 1 = total - (moved + size) + size - 1 + size := by omega
        rw [hsplit, Nat.add_div_right _ hsize] at hm
        exact Nat.succ.inj hm
      obtain ⟨u, calls, hruns, hlen, hout⟩ := ih hnext hdiv
      exact ⟨u, _, hrun.trans hruns, by rw [List.length_append, hlen, List.length_singleton],
        writtenOut_cons hnext.more hcall hstatus hbytes hout⟩

/-- Settles O51: the run from the first step. -/
theorem wholeChunkWriteMovesEveryByte : Obligations.WholeChunkWriteMovesEveryByte := by
  intro s w m hcfg hpos hN hm hrun hword hsched hans
  have hbuf := bufSize_le hcfg
  have hsize : 0 < s.cfg.chunkMax := by
    obtain ⟨⟨-, -, -, -, hchunk, -⟩, -⟩ := hcfg
    exact hchunk
  obtain ⟨t, calls, hruns, hlen, hout⟩ := run_onWholeLink hword hsize (by omega) m
    ⟨.start hcfg hN hrun, hpos, rfl, hsched, s.xferCount, le_rfl, hans⟩ hm
  exact ⟨t, calls, hruns, hout.ended, hout.log, hlen, hout.bytes, hout.count, hout.answers, hout.kept⟩

end Sys2Proof.Machine
end

section
/-! SUPPORT. The boundary guard (42_boundary_guard.md R170-R174): the arithmetic of `guard(w)`, what GUARD
leaves, and that a SEND of a guarded packet does not warn. -/

namespace Sys2Proof.Machine

/-! ### The arithmetic of `guard(w)` -/

theorem guardChunk_hit {p : Config} {w : Nat} (h : roundEven (p.guardOverhead + w) % p.m512 = 0) :
    guardChunk p w = { wAdj := w - p.guardShrink, rewind := p.guardShrink, hit := true } := if_pos h

theorem guardChunk_miss {p : Config} {w : Nat} (h : roundEven (p.guardOverhead + w) % p.m512 ≠ 0) :
    guardChunk p w = { wAdj := w, rewind := 0, hit := false } := if_neg h

section Chunk
variable {p : Config} (hp : p.WellFormed)
include hp

/-- On a hit the packet has at least M512 bytes, and a header, the offset and GUARD_SHRINK bytes fill
fewer. -/
theorem guardShrink_lt_of_hit {w : Nat} (h : roundEven (p.guardOverhead + w) % p.m512 = 0) :
    p.guardShrink < w := by
  obtain ⟨⟨-, -, -, -, -, hover, -⟩, hhdr, -, -, hfits⟩ := hp
  have hround := le_roundEven (p.guardOverhead + w)
  have hm512 : p.m512 ≤ roundEven (p.guardOverhead + w) :=
    Nat.le_of_dvd (by omega) (Nat.dvd_of_mod_eq_zero h)
  have hle := roundEven_le (p.guardOverhead + w)
  omega

theorem guardChunk_wAdj_add_rewind (w : Nat) : (guardChunk p w).wAdj + (guardChunk p w).rewind = w := by
  by_cases h : roundEven (p.guardOverhead + w) % p.m512 = 0
  · rw [guardChunk_hit h]
    exact Nat.sub_add_cancel (guardShrink_lt_of_hit hp h).le
  · rw [guardChunk_miss h, Nat.add_zero]

theorem guardChunk_wAdj_pos {w : Nat} (hw : 0 < w) : 0 < (guardChunk p w).wAdj := by
  by_cases h : roundEven (p.guardOverhead + w) % p.m512 = 0
  · rw [guardChunk_hit h]
    exact Nat.sub_pos_of_lt (guardShrink_lt_of_hit hp h)
  · rwa [guardChunk_miss h]

theorem guardChunk_rewind_lt (w : Nat) : (guardChunk p w).rewind < 2 ^ 8 := by
  obtain ⟨-, -, -, hrewind, -⟩ := hp
  by_cases h : roundEven (p.guardOverhead + w) % p.m512 = 0
  · rwa [guardChunk_hit h]
  · rw [guardChunk_miss h]
    exact Nat.two_pow_pos 8

/-- On a hit the packet is a multiple of M512 less GUARD_SHRINK, which is even and lies strictly between
0 and M512. -/
theorem guardChunk_not_multiple (w : Nat) :
    roundEven (p.guardOverhead + (guardChunk p w).wAdj) % p.m512 ≠ 0 := by
  by_cases h : roundEven (p.guardOverhead + w) % p.m512 = 0
  · have hlt := guardShrink_lt_of_hit hp h
    obtain ⟨⟨-, -, -, -, -, -, -, heven, hpos, hshrink, -⟩, -⟩ := hp
    have hshift : roundEven (p.guardOverhead + w) =
        roundEven (p.guardOverhead + (w - p.guardShrink)) + p.guardShrink := by
      unfold roundEven
      omega
    rw [guardChunk_hit h]
    intro hmultiple
    rw [hshift, Nat.add_mod, hmultiple, Nat.zero_add, Nat.mod_mod, Nat.mod_eq_of_lt hshrink] at h
    omega
  · rwa [guardChunk_miss h]

end Chunk

/-! ### GUARD -/

/-- What GUARD leaves of a chunk within GUARD_MAX_W (42_boundary_guard.md R172). -/
def State.guarded (s : State) : State := finish (s.setGuard (guardChunk s.cfg s.guardInput))

theorem execGuard_of_le {s : State} (h : s.guardInput ≤ s.cfg.guardMaxW) :
    exec .guard s = .next s.guarded := if_neg h.not_gt

theorem eq_guarded {s t : State} (hw : s.guardInput ≤ s.cfg.guardMaxW) (h : exec .guard s = .next t) :
    t = s.guarded := by
  rw [execGuard_of_le hw] at h
  exact (Host.Outcome.next.inj h).symm

section Guarded
variable {s : State} (hcfg : s.cfg.WellFormed)
include hcfg

/-- GUARD_OUT.W_ADJ holds the adjusted length without loss. -/
theorem guarded_wAdj : s.guarded.guardWAdj.toNat = (guardChunk s.cfg s.guardInput).wAdj := by
  have hsum := guardChunk_wAdj_add_rewind hcfg s.guardInput
  have hw : s.guardInput < 2 ^ 16 := s.guardW.isLt
  simp only [State.guarded, State.setGuard, finish_guardWAdj, flagIf_guardWAdj, BitVec.toNat_ofNat]
  exact Nat.mod_eq_of_lt (by omega)

/-- GUARD_OUT.REWIND holds the bytes to rewind without loss. -/
theorem guarded_rewind : s.guarded.guardRewind.toNat = (guardChunk s.cfg s.guardInput).rewind := by
  simp only [State.guarded, State.setGuard, finish_guardRewind, flagIf_guardRewind, BitVec.toNat_ofNat]
  exact Nat.mod_eq_of_lt (guardChunk_rewind_lt hcfg s.guardInput)

end Guarded

theorem guarded_of_hit {s : State} (h : roundEven (s.cfg.guardOverhead + s.guardInput) % s.cfg.m512 = 0) :
    s.guarded = finish (State.flag { s with
      guardWAdj := BitVec.ofNat 16 (s.guardInput - s.cfg.guardShrink)
      guardRewind := BitVec.ofNat 8 s.cfg.guardShrink } .guardHit) := by
  rw [State.guarded, guardChunk_hit h]
  rfl

theorem guarded_of_miss {s : State} (h : roundEven (s.cfg.guardOverhead + s.guardInput) % s.cfg.m512 ≠ 0) :
    s.guarded = finish { s with guardWAdj := BitVec.ofNat 16 s.guardInput, guardRewind := 0 } := by
  rw [State.guarded, guardChunk_miss h]
  rfl

theorem regsKept_guardOut (s : State) (w : BitVec 16) (b : Byte) :
    RegsKeptBut [.status, .guardOut] s (finish { s with guardWAdj := w, guardRewind := b }) := by
  intro r hr
  cases r
  case status | guardOut => exact absurd (by decide) hr
  all_goals rfl

/-- GUARD writes no buffer (O12). -/
theorem bytesKept_guard {s t : State} (h : exec .guard s = .next t) : BytesKept s t := fun b o =>
  (engineStepWritesOnlyItsBuffers .guard s t h).1 b o List.not_mem_nil

/-- The rule's example: 496 bytes become 492, and 4 to rewind. -/
theorem guardOut_example {s : State} (hdefault : s.cfg = Config.default) (hw : s.guardInput = 496) :
    regValue s.guarded .guardOut = 0x000401EC := by
  have hhit : roundEven (s.cfg.guardOverhead + s.guardInput) % s.cfg.m512 = 0 := by
    rw [hdefault, hw]
    decide
  rw [guarded_of_hit hhit, hdefault, hw]
  show (0 : BitVec 8) ++ BitVec.ofNat 8 4 ++ BitVec.ofNat 16 492 = 0x000401EC
  decide

/-- Settles O52: a hit leaves `guarded_of_hit`, a miss `guarded_of_miss`, and a larger chunk is a range
error. -/
theorem guardAdjustsChunk : Obligations.GuardAdjustsChunk := by
  refine ⟨decode_encode .guard, fun s hcfg => ⟨fun hw hhit => ?_, fun hw hmiss => ?_,
    fun hrange => ⟨rangeError s, if_pos hrange, rangeError_frame s⟩⟩⟩
  · have hexec := execGuard_of_le hw
    have hadj := guarded_wAdj hcfg
    have hrewind := guarded_rewind hcfg
    rw [guardChunk_hit hhit] at hadj hrewind
    obtain ⟨hregs, hkept⟩ := engineStepWritesOnlyItsRegisters .guard s _ hexec
    have hstate := guarded_of_hit hhit
    refine ⟨s.guarded, hexec, ?_, (guardShrink_lt_of_hit hcfg hhit).le, hadj, hrewind, ?_, hregs,
      bytesKept_guard hexec, ?_, hkept, guardOut_example⟩ <;> rw [hstate]
    · exact ⟨rfl, rfl⟩
    · exact flagsAdded_congr (flagsAdded_flag s .guardHit) rfl rfl rfl rfl
    · exact ⟨rfl, rfl, rfl⟩
  · have hexec := execGuard_of_le hw
    have hadj := guarded_wAdj hcfg
    rw [guardChunk_miss hmiss] at hadj
    have hstate := guarded_of_miss hmiss
    refine ⟨s.guarded, hexec, ?_, hadj, ?_, ?_, ?_, bytesKept_guard hexec, ?_,
      surroundingsKept_exec hexec⟩ <;> rw [hstate]
    · exact ⟨rfl, rfl⟩
    · exact finish_guardRewind _
    · exact flagsAdded_of_eq rfl rfl
    · exact regsKept_guardOut s _ _
    · exact ⟨rfl, rfl, rfl⟩

/-- Settles O54: GUARD_OUT holds the result of `guard(w)`, whose parts make up w. -/
theorem guardLosesNoByte : Obligations.GuardLosesNoByte := by
  intro s t hcfg hw h
  obtain rfl := eq_guarded hw h
  rw [guarded_wAdj hcfg, guarded_rewind hcfg]
  exact ⟨guardChunk_wAdj_add_rewind hcfg s.guardInput, guardChunk_wAdj_pos hcfg⟩

/-! ### A SEND behind GUARD -/

theorem writeDone_hasFlag (sent : Nat) (stop : Stop) (s : State) (f : Flag) :
    (writeDone sent stop s).hasFlag f = s.hasFlag f := by
  rw [State.hasFlag, writeDone, endWith_flags, State.hasFlag]

theorem hasFlag_flag_of_ne {f g : Flag} (h : f ≠ g) (s : State) : (s.flag g).hasFlag f = s.hasFlag f := by
  rw [hasFlag_flag, decide_eq_false h, Bool.or_false]

section WriteLoopFlags
variable {f : Flag} (hf : f ∉ [Flag.ioError, .zeroXfer, .shortWrite])
include hf

theorem afterWrite_writeDone_hasFlag (c : Ctx) (a : WriteAnswer) (s : State) :
    (afterWrite writeDone c a s).hasFlag f = s.hasFlag f := by
  simp only [List.mem_cons, List.not_mem_nil, or_false, not_or] at hf
  obtain ⟨hio, hzero, hshort⟩ := hf
  rcases afterWrite_cases writeDone c a s with ⟨e, -, h⟩ | ⟨-, h⟩ | ⟨k, -, -, -, h⟩ | ⟨k, -, -, -, h⟩ <;>
    rw [h]
  · rw [writeDone_hasFlag, hasFlag_flag_of_ne hshort, hasFlag_flag_of_ne hio]
    rfl
  · rw [writeDone_hasFlag, hasFlag_flag_of_ne hshort, hasFlag_flag_of_ne hzero]
  · rfl
  · exact writeDone_hasFlag ..

/-- A step of BULK_WRITE's and SEND's loop sets no flag but those of its link call's outcome. -/
theorem writeLoopStep_hasFlag {ep : Byte} {src : List Byte} {c : Ctx} {s t : State}
    (h : writeLoopStep ep src writeDone c s = .next t) : t.hasFlag f = s.hasFlag f := by
  rcases writeLoopStep_next h with ⟨-, rfl⟩ | ⟨-, a, s1, hcall, rfl⟩
  · exact writeDone_hasFlag ..
  · obtain ⟨-, _, _, rfl, -⟩ := linkWrite_some hcall
    exact afterWrite_writeDone_hasFlag hf ..

end WriteLoopFlags

/-- SEND warns of nothing but a transmitted length that is a multiple of M512 (41_bulk_transport.md R142). -/
theorem execSend_keeps_m512Warn {u v : State} (hT : u.transmitLen % u.cfg.m512 ≠ 0)
    (h : exec .send u = .next v) : v.hasFlag .m512Warn = u.hasFlag .m512Warn := by
  have hloops : Flag.m512Warn ∉ [Flag.ioError, .zeroXfer, .shortWrite] := by decide
  rcases execSend_next h with ⟨-, -, rfl⟩ | ⟨-, -, hloop⟩ | ⟨-, hloop⟩
  · obtain ⟨-, ⟨hflags, -⟩, -⟩ := rangeError_frame u
    simpa using hflags .m512Warn
  · obtain ⟨hflags, -⟩ := (prepared_sendPrepare u).flags
    rw [writeLoopStep_hasFlag hloops hloop, hflags, warnFlags, if_neg hT]
    simp
  · exact writeLoopStep_hasFlag hloops hloop

/-- Settles O53: the adjusted length makes no multiple of M512, and it is the length that SEND tests. -/
theorem guardedPacketIsNeverA512Multiple : Obligations.GuardedPacketIsNeverA512Multiple := by
  intro s t hcfg hw h
  obtain rfl := eq_guarded hw h
  have hmultiple := guardChunk_not_multiple hcfg s.guardInput
  rw [← guarded_wAdj hcfg] at hmultiple
  refine ⟨hmultiple, fun u v hu hP hclear hsend => ?_⟩
  have hT : u.transmitLen = roundEven (s.cfg.guardOverhead + s.guarded.guardWAdj.toNat) := by
    obtain ⟨⟨-, -, -, -, -, hover, -⟩, -⟩ := hcfg
    rw [State.transmitLen, State.packetLen, hu, hP, hover, Nat.add_assoc]
  rw [execSend_keeps_m512Warn (by rwa [hT, hu]) hsend, hclear]

/-- A fresh block with 496 bytes for GUARD, whose packet would have 512. -/
def hitState : State := { State.reset with guardW := 496 }

/-- A fresh block with the SEND accepted that follows: the counter and the 492 bytes that GUARD leaves, and
a link that takes the 508 bytes of the packet. -/
def guardedSendState : State := { accept 7 State.reset with txPlen := 500, answers := [.write (.ok 508)] }

theorem hitState_wAdj : hitState.guarded.guardWAdj = 492 := by decide

/-- The premises of O53 hold together, and the SEND answers a next state without the warning. -/
theorem guardedSendState_quiet :
    ∃ v, exec .send guardedSendState = .next v ∧ v.hasFlag .m512Warn = false := by
  have hcfg : guardedSendState.cfg.WellFormed := by decide
  obtain ⟨-, hstep⟩ := sendFirstStep guardedSendState _ hcfg rfl rfl
  obtain ⟨-, v, -, hsend, -⟩ := hstep (by decide) (.ok 508) [] 508 508 rfl (by decide) (by decide) (by decide)
  have hguard := execGuard_of_le (s := hitState) (by decide)
  obtain ⟨-, hquiet⟩ := guardedPacketIsNeverA512Multiple hitState _ hcfg (by decide) hguard
  exact ⟨v, hsend, hquiet guardedSendState v rfl (by rw [hitState_wAdj]; decide) (by decide) hsend⟩

/-! ### The upload packet -/

theorem uploadPayload_length (offset : Nat) (chunk : List Byte) :
    (uploadPayload offset chunk).length = 8 + chunk.length := List.length_append

/-- Settles O55: the counter's 8 bytes are the OFFSET_LEN of GUARD_OVERHEAD. -/
theorem uploadPacketLength : Obligations.UploadPacketLength := by
  intro s offset chunk hcfg hoffset hP
  obtain ⟨⟨-, -, -, -, -, hover, -⟩, -⟩ := hcfg
  have hlen : s.packetLen = s.cfg.guardOverhead + chunk.length := by
    rw [State.packetLen, hP, uploadPayload_length, hover, hoffset, Nat.add_assoc]
  exact ⟨hlen, congrArg roundEven hlen⟩

end Sys2Proof.Machine
end

section
/-! SUPPORT. How an engine step leaves STATUS, said once: the operation still runs and STATUS is untouched,
or it ends, and an error it ends with is one of its own (60_exceptions.md R180, R181, R184). -/

namespace Sys2Proof.Machine

/-! ### The flags of the error codes -/

theorem errCode_code_inj {c d : ErrCode} : c.code = d.code ↔ c = d := by
  cases c <;> cases d <;> decide

theorem errCode_code_ne_zero (c : ErrCode) : c.code ≠ 0 := by
  cases c <;> decide

/-- The column "FLAGS bit" of R181's table: the flags that operation i has set when it raises c. -/
def ErrorFlags (i : Instr) (s : State) : ErrCode → Prop
  | .illegal => s.hasFlag .illegalOp = true
  | .range => s.hasFlag .rangeErr = true
  | .io => s.hasFlag .ioError = true ∧ (i = .bulkWrite ∨ i = .send → s.hasFlag .shortWrite = true)
  | .zero => s.hasFlag .zeroXfer = true ∧ s.hasFlag .shortWrite = true
  | .tooShort => s.hasFlag .tooShort = true
  | .badLen => s.hasFlag .badLen = true
  | .shortPacket => s.hasFlag .shortPacket = true
  | .crc => s.hasFlag .crcChecked = true ∧ s.hasFlag .crcMismatch = true
  | .ack => s.hasFlag .ackFail = true ∧ s.hasFlag .shortWrite = true ∧
      (s.hasFlag .ioError = true ∨ s.hasFlag .zeroXfer = true)

/-- An error's flags stay set where no flag is cleared. -/
theorem errorFlags_mono {i : Instr} {s t : State} (hkeep : ∀ f, s.hasFlag f = true → t.hasFlag f = true)
    {c : ErrCode} (h : ErrorFlags i s c) : ErrorFlags i t c := by
  cases c with
  | illegal | range | tooShort | badLen | shortPacket => exact hkeep _ h
  | io =>
    obtain ⟨hio, hshort⟩ := h
    exact ⟨hkeep _ hio, fun hi => hkeep _ (hshort hi)⟩
  | zero | crc =>
    obtain ⟨hfirst, hsecond⟩ := h
    exact ⟨hkeep _ hfirst, hkeep _ hsecond⟩
  | ack =>
    obtain ⟨hack, hshort, hcause⟩ := h
    exact ⟨hkeep _ hack, hkeep _ hshort, hcause.imp (hkeep _) (hkeep _)⟩

theorem hasFlag_flag_self (s : State) (f : Flag) : (s.flag f).hasFlag f = true := by
  simp [hasFlag_flag]

theorem hasFlag_flag_of_hasFlag {s : State} {f : Flag} (h : s.hasFlag f = true) (g : Flag) :
    (s.flag g).hasFlag f = true := by
  simp [hasFlag_flag, h]

theorem validate_keeps_flags (n : Nat) (s : State) {f : Flag} (h : s.hasFlag f = true) :
    (validate n s).1.hasFlag f = true := by
  obtain ⟨fs, -, hflags, -⟩ := updates_flags (updates_validate (i := .recv) (by decide) n s)
  rw [hflags, h, Bool.true_or]

/-! ### What a step can raise -/

/-- Operation i may raise c at s: the code is one of its own, and the flags of that error are set. The
flags are claimed under `ok`, which only the acknowledgement's error needs. -/
def MayRaise (i : Instr) (ok : Prop) (s : State) (c : ErrCode) : Prop :=
  c.code ∈ errorsRaised i ∧ (ok → ErrorFlags i s c)

/-- How a step of operation i leaves STATUS, which was st before it. -/
inductive StatusAfter (i : Instr) (ok : Prop) (st : Status) : State → Prop
  | runs {t : State} (hrun : t.engine ≠ .idle) (hst : t.status = st) : StatusAfter i ok st t
  | ends (e : Option ErrCode) {u : State} (hst : u.status = st)
      (herr : ∀ c, e = some c → MayRaise i ok u c) : StatusAfter i ok st (endWith e u)

section Ends
variable {i : Instr} {ok : Prop} {st : Status} {u : State} (hst : u.status = st)
include hst

theorem statusAfter_finish : StatusAfter i ok st (finish u) :=
  .ends none hst nofun

theorem statusAfter_raise {c : ErrCode} (hc : MayRaise i ok u c) : StatusAfter i ok st (raise c u) :=
  .ends (some c) hst fun _ h => Option.some.inj h ▸ hc

theorem statusAfter_rangeError (hi : 0x02 ∈ errorsRaised i) : StatusAfter i ok st (rangeError u) :=
  statusAfter_raise (u := u.flag .rangeErr) hst ⟨hi, fun _ => hasFlag_flag_self u .rangeErr⟩

end Ends

/-! ### Validation -/

/-- A validation raises the errors of its verdicts, each behind its flags. -/
theorem mayRaise_validate {i : Instr} (hi : i ∈ [Instr.decode, .recv]) {ok : Prop} {n : Nat} {s : State}
    {c : ErrCode} (h : (validate n s).2 = some c) : MayRaise i ok (validate n s).1 c := by
  have hcodes : ∀ d ∈ [ErrCode.tooShort, .badLen, .shortPacket, .crc], d.code ∈ errorsRaised i := by
    revert i
    decide
  have kc := compareCrc_cases (declaredLen s) (recoverPacket n s)
  rcases validate_cases n s with
    ⟨-, hv⟩ | ⟨-, -, hv⟩ | ⟨-, -, -, -, hv⟩ | ⟨-, -, -, -, hv⟩ | ⟨-, -, -, -, hv⟩ | ⟨-, -, -, -, hv⟩ <;>
    rw [hv] at h ⊢
  · cases h
    exact ⟨hcodes .tooShort (by decide), fun _ => hasFlag_flag_self ..⟩
  · cases h
    exact ⟨hcodes .badLen (by decide), fun _ => hasFlag_flag_self ..⟩
  · cases h
  · cases h
    exact ⟨hcodes .shortPacket (by decide), fun _ => hasFlag_flag_self ..⟩
  · cases h
  · rcases kc with ⟨-, hc⟩ | ⟨-, -, hc⟩ | ⟨-, -, hc⟩ <;> rw [hc] at h ⊢ <;> cases h
    exact ⟨hcodes .crc (by decide), fun _ =>
      ⟨hasFlag_flag_of_hasFlag (hasFlag_flag_self ..) _, hasFlag_flag_self ..⟩⟩

/-- RECV's end raises the validation's error, else ACK, whose flags the acknowledgement loop has set. -/
theorem statusAfter_recvValidate {ok : Prop} {st : Status} {u : State} (hst : u.status = st) (n : Nat)
    {failed : Bool} (hack : failed = true → ok → ErrorFlags .recv u .ack) :
    StatusAfter .recv ok st (recvValidate n failed u) := by
  rw [recvValidate_eq]
  refine .ends _ ((validate_status n u).trans hst) fun c hc => ?_
  cases hv : (validate n u).2 with
  | some e =>
    obtain rfl : e = c := by simpa [hv] using hc
    exact mayRaise_validate (by decide) hv
  | none =>
    obtain ⟨hfailed, rfl⟩ : failed = true ∧ .ack = c := by simpa [hv] using hc
    exact ⟨by decide, fun hok => errorFlags_mono (fun _ => validate_keeps_flags n u) (hack hfailed hok)⟩

/-! ### Chunk loops -/

/-- How a write loop of context c stops, with n bytes sent: all of them, or an error with its flags set
(41_bulk_transport.md R140). -/
inductive WriteStop (c : Ctx) : Nat → Stop → State → Prop
  | whole {n : Nat} {u : State} (h : c.cursor < c.target → n = c.target) : WriteStop c n none u
  | io {n : Nat} {u : State} (hio : u.hasFlag .ioError = true) (hshort : u.hasFlag .shortWrite = true) :
      WriteStop c n (some .io) u
  | zero {n : Nat} {u : State} (hzero : u.hasFlag .zeroXfer = true)
      (hshort : u.hasFlag .shortWrite = true) : WriteStop c n (some .zero) u

section Loops
variable {i : Instr} {ok : Prop} {ep : Byte} {fin : Nat → Stop → State → State} {c : Ctx} {s t : State}

/-- A step of a write loop leaves STATUS as going on or the rest of the operation does. -/
theorem statusAfter_writeLoopStep {src : List Byte}
    (hfin : ∀ n stop u, u.status = s.status → WriteStop c n stop u → StatusAfter i ok s.status (fin n stop u))
    (h : writeLoopStep ep src fin c s = .next t) : StatusAfter i ok s.status t := by
  rcases writeLoopStep_next h with ⟨hend, rfl⟩ | ⟨hlt, a, s1, hcall, rfl⟩
  · exact hfin _ _ _ rfl (.whole fun hlt => absurd hlt hend.not_gt)
  · obtain ⟨hwithin, rest, d, rfl, -⟩ := linkWrite_some hcall
    rcases afterWrite_cases fin c a _ with ⟨e, -, heq⟩ | ⟨-, heq⟩ | ⟨k, -, -, -, heq⟩ | ⟨k, ha, -, hk, heq⟩ <;>
      rw [heq]
    · exact hfin _ _ _ rfl
        (.io (hasFlag_flag_of_hasFlag (hasFlag_flag_self ..) _) (hasFlag_flag_self ..))
    · exact hfin _ _ _ rfl
        (.zero (hasFlag_flag_of_hasFlag (hasFlag_flag_self ..) _) (hasFlag_flag_self ..))
    · exact .runs nofun rfl
    · subst ha
      have hle : k ≤ c.target - c.cursor := by
        simp only [writeWithin, List.length_take, chunkSize, decide_eq_true_eq] at hwithin
        omega
      exact hfin _ _ _ rfl (.whole fun _ => by omega)

/-- A step of a read loop likewise; its one error is IO, behind its flag (41_bulk_transport.md R141). -/
theorem statusAfter_readLoopStep
    (hfin : ∀ n stop u, u.status = s.status → (∀ e, stop = some e → e = .io ∧ u.hasFlag .ioError = true) →
      StatusAfter i ok s.status (fin n stop u))
    (h : readLoopStep ep fin c s = .next t) : StatusAfter i ok s.status t := by
  rcases readLoopStep_next h with ⟨-, rfl⟩ | ⟨-, a, s1, hcall, rfl⟩
  · exact hfin _ _ _ rfl nofun
  · obtain ⟨-, rest, d, rfl, -⟩ := linkRead_some hcall
    rcases afterRead_cases fin c (chunkSize s c) a _ with
      ⟨e, -, heq⟩ | ⟨bs, -, -, heq⟩ | ⟨bs, -, -, -, heq⟩ | ⟨bs, -, -, -, heq⟩ <;> rw [heq]
    · exact hfin _ _ _ rfl fun _ hstop => ⟨(Option.some.inj hstop).symm, hasFlag_flag_self ..⟩
    · exact hfin _ _ _ rfl nofun
    · exact .runs nofun rfl
    · exact hfin _ _ _ rfl nofun

end Loops

/-! ### The ends of the loops -/

/-- BULK_WRITE and SEND end with the error of their write loop. -/
theorem statusAfter_writeDone {i : Instr} (hi : i ∈ [Instr.bulkWrite, .send]) {ok : Prop} {st : Status}
    {c : Ctx} (n : Nat) (stop : Stop) (u : State) (hst : u.status = st) (hstop : WriteStop c n stop u) :
    StatusAfter i ok st (writeDone n stop u) := by
  have hcodes : ∀ d ∈ [ErrCode.io, .zero], d.code ∈ errorsRaised i := by
    revert i
    decide
  refine .ends stop hst fun d hd => ?_
  cases hstop with
  | whole => cases hd
  | io hio hshort => cases hd; exact ⟨hcodes .io (by decide), fun _ => ⟨hio, fun _ => hshort⟩⟩
  | zero hzero hshort => cases hd; exact ⟨hcodes .zero (by decide), fun _ => ⟨hzero, hshort⟩⟩

/-- An operation that reads may raise IO behind IO_ERROR alone. -/
theorem mayRaise_readError {i : Instr} (hi : i ∈ [Instr.bulkRead, .recv]) {ok : Prop} {u : State}
    {e : ErrCode} (h : e = .io ∧ u.hasFlag .ioError = true) : MayRaise i ok u e := by
  obtain ⟨rfl, hio⟩ := h
  obtain ⟨hcode, hread⟩ : ErrCode.io.code ∈ errorsRaised i ∧ ¬(i = .bulkWrite ∨ i = .send) := by
    revert i
    decide
  exact ⟨hcode, fun _ => ⟨hio, fun hwrite => absurd hwrite hread⟩⟩

theorem statusAfter_readDone {ok : Prop} {st : Status} (n : Nat) (stop : Stop) (u : State)
    (hst : u.status = st) (hstop : ∀ e, stop = some e → e = .io ∧ u.hasFlag .ioError = true) :
    StatusAfter .bulkRead ok st (readDone n stop u) :=
  .ends stop hst fun c hc => mayRaise_readError (by decide) (hstop c hc)

/-- RECV's read loop ends the operation with its error, starts the acknowledgement or validates. -/
theorem statusAfter_recvReadDone {ok : Prop} {st : Status} (got : Nat) (stop : Stop) (u : State)
    (hst : u.status = st) (hstop : ∀ e, stop = some e → e = .io ∧ u.hasFlag .ioError = true) :
    StatusAfter .recv ok st (recvReadDone got stop u) := by
  have hmark : (markEarly got (u.setReceived got)).status = st := (markEarly_status ..).trans hst
  rcases recvReadDone_cases got stop u with ⟨e, he, heq⟩ | ⟨-, -, -, heq⟩ | ⟨-, -, heq⟩ <;> rw [heq]
  · exact statusAfter_raise (u := u.setReceived got) hst (mayRaise_readError (by decide) (hstop e he))
  · exact .runs nofun ((flagIf_status ..).trans hmark)
  · exact statusAfter_recvValidate hmark got nofun

/-- RECV's acknowledgement loop ends in the validation; where it stopped short, the flags of ACK are set.
A loop inside its 8 bytes sends all of them unless it stops with an error. -/
theorem statusAfter_recvAckDone {ok : Prop} {st : Status} {c : Ctx}
    (hok : ok → c.cursor < c.target ∧ c.target = 8) (sent : Nat) (stop : Stop) (u : State)
    (hst : u.status = st) (hstop : WriteStop c sent stop u) :
    StatusAfter .recv ok st (recvAckDone sent stop u) := by
  unfold recvAckDone
  split
  · exact statusAfter_recvValidate (u := u.flag .ackSent) hst _ nofun
  · next hne =>
    refine statusAfter_recvValidate (u := u.flag .ackFail) hst _ fun _ h => ⟨hasFlag_flag_self .., ?_⟩
    obtain ⟨hlt, h8⟩ := hok h
    cases hstop with
    | whole hall => exact absurd ((hall hlt).trans h8) hne
    | io hio hshort =>
      exact ⟨hasFlag_flag_of_hasFlag hshort _, .inl (hasFlag_flag_of_hasFlag hio _)⟩
    | zero hzero hshort =>
      exact ⟨hasFlag_flag_of_hasFlag hshort _, .inr (hasFlag_flag_of_hasFlag hzero _)⟩

/-! ### Operations -/

/-- An acknowledgement under way has bytes left of its 8 (`CtxValid`). -/
def AckInRange (s : State) : Prop :=
  s.ctx.stage = .ackChunk → s.ctx.cursor < s.ctx.target ∧ s.ctx.target = 8

theorem ackInRange_of_inv {s : State} {c : Ctx} (hs : s.Inv) (hrun : s.engine = .run c) : AckInRange s := by
  rw [AckInRange, ctx_of_run hrun]
  intro hstage
  have hvalid := hs.ctx_valid c hrun
  simp only [CtxValid, hstage] at hvalid
  obtain ⟨hlt, h8, -⟩ := hvalid
  exact ⟨hlt, h8⟩

section Exec
variable {ok : Prop} {s t : State}

theorem statusAfter_execDecode (h : execDecode s = .next t) : StatusAfter .decode ok s.status t := by
  rcases execDecode_next h with ⟨-, rfl⟩ | ⟨-, rfl⟩
  · exact statusAfter_rangeError rfl (by decide)
  · exact .ends _ (by simp) fun c hc => mayRaise_validate (by decide) hc

theorem statusAfter_execBulkWrite (h : execBulkWrite s = .next t) :
    StatusAfter .bulkWrite ok s.status t := by
  rcases execBulkWrite_next h with ⟨-, -, rfl⟩ | ⟨-, -, hloop⟩ | ⟨-, hloop⟩
  · exact statusAfter_rangeError rfl (by decide)
  · exact (prepared_warn512 _ s).status ▸ statusAfter_writeLoopStep (statusAfter_writeDone (by decide)) hloop
  · exact statusAfter_writeLoopStep (statusAfter_writeDone (by decide)) hloop

theorem statusAfter_execBulkRead (h : execBulkRead s = .next t) : StatusAfter .bulkRead ok s.status t := by
  rcases execBulkRead_next h with ⟨-, -, rfl⟩ | ⟨-, -, hloop⟩ | ⟨-, hloop⟩
  · exact statusAfter_rangeError rfl (by decide)
  · exact statusAfter_readLoopStep statusAfter_readDone hloop
  · exact statusAfter_readLoopStep statusAfter_readDone hloop

theorem statusAfter_execSend (h : execSend s = .next t) : StatusAfter .send ok s.status t := by
  rcases execSend_next h with ⟨-, -, rfl⟩ | ⟨-, -, hloop⟩ | ⟨-, hloop⟩
  · exact statusAfter_rangeError rfl (by decide)
  · exact (prepared_sendPrepare s).status ▸ statusAfter_writeLoopStep (statusAfter_writeDone (by decide)) hloop
  · exact statusAfter_writeLoopStep (statusAfter_writeDone (by decide)) hloop

theorem statusAfter_execRecv (h : execRecv s = .next t) : StatusAfter .recv (AckInRange s) s.status t := by
  rcases execRecv_next h with ⟨-, hloop⟩ | ⟨-, hloop⟩ | ⟨hstage, hloop⟩
  · exact statusAfter_readLoopStep statusAfter_recvReadDone hloop
  · exact statusAfter_readLoopStep statusAfter_recvReadDone hloop
  · exact statusAfter_writeLoopStep (statusAfter_recvAckDone fun hok => hok hstage) hloop

/-- Every engine step leaves STATUS alone, or ends its operation normally or with an error of its own. -/
theorem statusAfter_exec {i : Instr} (h : exec i s = .next t) : StatusAfter i (AckInRange s) s.status t := by
  cases i with
  | nop => obtain rfl := execNop_next h; exact statusAfter_finish rfl
  | crc =>
    rcases execCrc_next h with ⟨-, rfl⟩ | ⟨-, rfl⟩
    · exact statusAfter_rangeError rfl (by decide)
    · exact statusAfter_finish rfl
  | swap =>
    rcases execSwap_next h with ⟨-, rfl⟩ | ⟨-, rfl⟩
    · exact statusAfter_rangeError rfl (by decide)
    · exact statusAfter_finish rfl
  | encode =>
    rcases execEncode_next h with ⟨-, rfl⟩ | ⟨-, rfl⟩
    · exact statusAfter_rangeError rfl (by decide)
    · exact statusAfter_finish rfl
  | decode => exact statusAfter_execDecode h
  | bulkWrite => exact statusAfter_execBulkWrite h
  | bulkRead => exact statusAfter_execBulkRead h
  | send => exact statusAfter_execSend h
  | recv => exact statusAfter_execRecv h
  | guard =>
    rcases execGuard_next h with ⟨-, rfl⟩ | ⟨-, rfl⟩
    · exact statusAfter_rangeError rfl (by decide)
    · exact statusAfter_finish (flagIf_status ..)

end Exec

/-! ### The obligations on STATUS.ERR -/

/-- Settles O8, by the two ways a step leaves STATUS. -/
theorem operationEndsWithItsErrors : Obligations.OperationEndsWithItsErrors := by
  intro i s t c _ h
  rcases statusAfter_exec h with ⟨hrun, hst⟩ | ⟨e, hst, herr⟩
  · exact ⟨fun _ => hst, fun hidle => absurd hidle hrun⟩
  · refine ⟨fun hrun => absurd (endWith_engine ..) hrun, fun _ => ?_⟩
    cases e with
    | none => simp [hst]
    | some d =>
      obtain ⟨hcode, -⟩ := herr d rfl
      exact ⟨rfl, rfl, (congrArg Status.lastOp hst :), .inr hcode⟩

/-- The code a step leaves in STATUS.ERR has the flags of its row of R181: a running operation of an
invariant state holds no code, so one that stands there was raised by this step. -/
theorem errorFlags_of_err {i : Instr} {s t : State} {c : Ctx} (hs : s.Inv) (hrun : s.engine = .run c)
    (h : exec i s = .next t) {d : ErrCode} (hd : t.status.err = d.code) : ErrorFlags i t d := by
  obtain ⟨-, hclean⟩ := hs.run_clean (running_of_run hrun)
  rcases statusAfter_exec h with ⟨-, hst⟩ | ⟨e, hst, herr⟩
  · rw [hst, hclean] at hd
    exact absurd hd.symm (errCode_code_ne_zero d)
  · cases e with
    | none =>
      rw [endWith_none, finish_status, hst] at hd
      exact absurd (hd.symm.trans hclean) (errCode_code_ne_zero d)
    | some e =>
      obtain rfl : e = d := errCode_code_inj.mp hd
      obtain ⟨-, hflags⟩ := herr e rfl
      exact errorFlags_mono (fun _ hf => hf) (hflags (ackInRange_of_inv hs hrun))

/-- Settles O9, row by row of R181's table. -/
theorem errorCodeHasItsFlags : Obligations.ErrorCodeHasItsFlags := by
  intro i s t c hs hrun _ h
  have key (d : ErrCode) (hd : t.status.err = d.code) : ErrorFlags i t d := errorFlags_of_err hs hrun h hd
  exact ⟨key .range, key .io, key .zero, key .tooShort, key .badLen, key .shortPacket, key .crc, key .ack⟩

end Sys2Proof.Machine
end

section
/-! SUPPORT. An idle block holds its state until the host writes OP (60_exceptions.md R195). -/

namespace Sys2Proof.Machine

theorem engineTurn_of_idle {s : State} (h : s.engine = .idle) : engineTurn s = .next s := by
  simp [engineTurn, h]

@[simp] theorem hostRead_engine (a : Addr) (n : Width) (s : State) : (hostRead a n s).engine = s.engine := by
  obtain ⟨_, _, _, h⟩ := hostRead_frame a n s
  rw [h]

theorem regWrite_engine {r : Reg} (hop : r ≠ .op) (v : Word) (s : State) :
    (regWrite r v s).engine = s.engine := by
  cases r
  case op => exact absurd rfl hop
  all_goals rfl

/-- The one host access that changes an idle block's engine is a 4-byte write to OP, which accepts. -/
theorem hostStep_engine_of_idle {s : State} (hidle : s.engine = .idle) (x : HostAccess) :
    (hostStep x s).engine = .idle ∨ ∃ w, x = .write 0x00000 .word w ∧ hostStep x s = accept w s := by
  cases x with
  | read a n => exact .inl ((hostRead_engine a n s).trans hidle)
  | write a n v =>
    simp only [hostStep]
    rcases access_cases s.cfg.bufSize a n with hbad | ⟨r, rfl, ha⟩ | ⟨rfl, hlt, hge, halign⟩ |
      ⟨b, o, rfl, ha, ho, ho'⟩
    · rw [hostWrite_bad hbad]
      exact .inl hidle
    · rw [hostWrite_reg_idle ha s hidle]
      by_cases hop : r = .op
      · subst hop
        obtain rfl : a = 0 := BitVec.eq_of_toNat_eq ha
        exact .inr ⟨v, rfl, rfl⟩
      · exact .inl ((regWrite_engine hop v s).trans hidle)
    · rw [hostWrite_reserved hlt hge halign]
      exact .inl hidle
    · rw [hostWrite_buffer_idle ha ho ho' hidle]
      exact .inl ((setBuffer_engine ..).trans hidle)

@[simp] theorem blockReset_engine (s : State) : (blockReset s).engine = .idle := rfl

@[simp] theorem resetInCall_engine (s : State) : (resetInCall s).engine = .idle := by
  unfold resetInCall
  split <;> rfl

/-- Settles O7: an idle engine's turn does nothing, and of the other turns only a host's write to OP leaves
the engine running. -/
theorem idleBlockHoldsState : Obligations.IdleBlockHoldsState := by
  intro s t hidle h
  rcases step_next h with ⟨hsch, hturn⟩ | ⟨rest, hsch, hturn⟩ | ⟨x, rest, hsch, rfl⟩ | ⟨rest, hsch, rfl⟩ |
    ⟨rest, hsch, rfl⟩ <;> rw [hsch]
  · rw [engineTurn_of_idle hidle] at hturn
    obtain rfl : s = t := by simpa using hturn
    exact ⟨fun _ => rfl, nofun, fun hrun => absurd hidle hrun⟩
  · rw [engineTurn_of_idle (by exact hidle)] at hturn
    obtain rfl : { s with schedule := rest } = t := by simpa using hturn
    exact ⟨nofun, by rintro _ ⟨⟩; rfl, fun hrun => absurd hidle hrun⟩
  · refine ⟨nofun, nofun, fun hrun => ?_⟩
    rcases hostStep_engine_of_idle (s := { s with schedule := rest }) hidle x with hstill | ⟨w, rfl, hacc⟩
    · exact absurd hstill hrun
    · exact ⟨w, rest, rfl, by rw [hacc, accept_engine]⟩
  · exact ⟨nofun, nofun, fun hrun => absurd (blockReset_engine _) hrun⟩
  · exact ⟨nofun, nofun, fun hrun => absurd (resetInCall_engine _) hrun⟩

end Sys2Proof.Machine
end

section
/-! SUPPORT. The block after a reset (70_reset_and_hazards.md R201), and that a reset abandons whatever
runs, a link call in progress included (R202). -/

namespace Sys2Proof.Machine

/-! ### The state after a reset -/

theorem config_default_wellFormed : Config.default.WellFormed := by constructor <;> decide

theorem read_unwritten (d o : Nat) :
    Memory.read { cells := [], fill := .unwritten d } o = Config.freeByteAt d o := rfl

section AfterReset
variable (p : Config) (d : Nat) (sched : List Turn) (an : List LinkAnswer) (lg : List LinkEvent)
  (rd : Option Word)

/-- Only the configuration counts in the registers a reset leaves. -/
theorem afterReset_regValue (r : Reg) :
    regValue (State.afterReset p d sched an lg rd) r =
      regValue (State.afterReset p 0 [] [] [] none) r := by
  cases r <;> rfl

/-- Of the registers, a reset leaves only CONFIG, TIMEOUT and the two parameters above 0. -/
theorem afterReset_regValue_zero {r : Reg} (hr : r ∉ [Reg.config, .timeout, .param0, .param1]) :
    regValue (State.afterReset p d sched an lg rd) r = 0 := by
  cases r
  case config | timeout | param0 | param1 => exact absurd (by decide) hr
  case status | rxCrc | guardOut => simp [regValue, State.afterReset, Status.word]
  all_goals rfl

theorem afterReset_cells (b : Buf) : ((State.afterReset p d sched an lg rd).buffer b).cells = [] := by
  cases b <;> rfl

theorem afterReset_read (o : Nat) :
    (State.afterReset p d sched an lg rd).txbuf.read o = Config.freeByteAt d o ∧
    (State.afterReset p d sched an lg rd).rxbuf.read o = Config.freeByteAt (d + 1) o ∧
    (State.afterReset p d sched an lg rd).rxpkt.read o = Config.freeByteAt (d + 2) o :=
  ⟨read_unwritten d o, read_unwritten (d + 1) o, read_unwritten (d + 2) o⟩

end AfterReset

/-- Settles O15, row by row of R201's table. -/
theorem resetValues : Obligations.ResetValues :=
  ⟨fun p d sched an lg rd => ⟨rfl, rfl, rfl, rfl, rfl,
    fun _ hr => afterReset_regValue_zero p d sched an lg rd hr, afterReset_read p d sched an lg rd⟩, rfl⟩

/-- Settles O17: `inv_afterReset`, for the default configuration and for every other well-formed one. -/
theorem resetSatisfiesInvariant : Obligations.ResetSatisfiesInvariant :=
  ⟨config_default_wellFormed, inv_afterReset config_default_wellFormed 0 [] [] [] none,
    fun _ d sched an lg rd hp => inv_afterReset hp d sched an lg rd⟩

/-! ### A reset inside a link call -/

section NextCall
variable {s u : State} (hturn : engineTurn { s with answers := [] } = .next u)
include hturn

/-- Where the engine's next step logs no call, none is in progress. -/
theorem nextCall_eq_none (hlog : u.linkLog = s.linkLog) : nextCall s = none := by
  simp [nextCall, hturn, hlog]

/-- The call in progress is the one the engine's next step logs. -/
theorem nextCall_eq_some {ev : LinkEvent} (hlog : u.linkLog = ev :: s.linkLog) : nextCall s = some ev := by
  simp [nextCall, hturn, hlog]

end NextCall

theorem resetInCall_of_none {s : State} (h : nextCall s = none) : resetInCall s = blockReset s := by
  simp [resetInCall, h]

theorem resetInCall_of_some {s : State} {ev : LinkEvent} (h : nextCall s = some ev) :
    resetInCall s =
      blockReset { s with linkLog := discardAnswer ev :: s.linkLog, answers := s.answers.tail } := by
  simp [resetInCall, h]

/-- A reset inside a call differs from the plain one only in the calls made and the answers listed. -/
theorem resetInCall_eq_afterReset (s : State) :
    ∃ an lg, resetInCall s = State.afterReset s.cfg s.draws s.schedule an lg s.readData := by
  cases h : nextCall s with
  | none => exact ⟨_, _, resetInCall_of_none h⟩
  | some ev => exact ⟨_, _, resetInCall_of_some h⟩

section Reset
variable {s t : State} {x : Turn} {rest : List Turn} (hsched : s.schedule = x :: rest)
  (h : step s = .next t)
include hsched h

theorem step_of_reset (hx : x = .reset) : t = blockReset { s with schedule := rest } := by
  subst hx
  simpa [step, nextTurn, hsched, takeTurn] using h.symm

theorem step_of_resetInCall (hx : x = .resetInCall) : t = resetInCall { s with schedule := rest } := by
  subst hx
  simpa [step, nextTurn, hsched, takeTurn] using h.symm

/-- A step whose turn is a reset gives the state of R201, whatever ran before. -/
theorem step_reset_eq_afterReset (hx : x = .reset ∨ x = .resetInCall) :
    ∃ an lg, t = State.afterReset s.cfg s.draws rest an lg s.readData := by
  rcases hx with hx | hx
  · exact ⟨_, _, step_of_reset hsched h hx⟩
  · rw [step_of_resetInCall hsched h hx]
    exact resetInCall_eq_afterReset _

/-- What a reset inside a call leaves outside the block: the call in progress without its answer. -/
theorem step_resetInCall_log (hx : x = .resetInCall) {u : State}
    (hturn : engineTurn { s with schedule := rest, answers := [] } = .next u) :
    (u.linkLog = s.linkLog → t.linkLog = s.linkLog ∧ t.answers = s.answers) ∧
    (∀ ev, u.linkLog = ev :: s.linkLog →
      t.linkLog = discardAnswer ev :: s.linkLog ∧ t.answers = s.answers.tail) := by
  rw [step_of_resetInCall hsched h hx]
  refine ⟨fun hlog => ?_, fun ev hlog => ?_⟩
  · rw [resetInCall_of_none (nextCall_eq_none (s := { s with schedule := rest }) hturn hlog)]
    exact ⟨rfl, rfl⟩
  · rw [resetInCall_of_some (nextCall_eq_some (s := { s with schedule := rest }) hturn hlog)]
    exact ⟨rfl, rfl⟩

end Reset

/-- Settles O16: either reset gives the state of R201, and the one inside a call discards the answer of
the call that the engine's next step makes. -/
theorem resetAbandonsOperation : Obligations.ResetAbandonsOperation := by
  intro s t x rest hsched hx h
  have hplain (hx : x = .reset) : t.linkLog = s.linkLog ∧ t.answers = s.answers := by
    rw [step_of_reset hsched h hx]
    exact ⟨rfl, rfl⟩
  have hcall (hx : x = .resetInCall) (u : State) := step_resetInCall_log hsched h hx (u := u)
  obtain ⟨an, lg, rfl⟩ := step_reset_eq_afterReset hsched h hx
  exact ⟨rfl, rfl, rfl, afterReset_regValue _ _ _ _ _ _, afterReset_cells _ _ _ _ _ _, rfl,
    afterReset_read _ _ _ _ _ _, hplain, hcall⟩

end Sys2Proof.Machine
end

section
/-! SUPPORT. The measure of remaining work falls at every engine step of a running operation
(70_reset_and_hazards.md R210, 41_bulk_transport.md R150). -/

namespace Sys2Proof.Machine

/-! ### The measure -/

theorem engineWork_of_idle {s : State} (h : s.engine = .idle) : engineWork s = 0 := by
  simp [engineWork, h]

theorem engineWork_endWith (e : Option ErrCode) (s : State) : engineWork (endWith e s) = 0 :=
  engineWork_of_idle (endWith_engine e s)

section Running
variable {s : State} {c : Ctx} (hrun : s.engine = .run c)
include hrun

theorem engineWork_start (hstage : c.stage = .start) : engineWork s = s.cfg.bufSize + 10 := by
  simp [engineWork, hrun, hstage]

theorem engineWork_chunk (hstage : c.stage = .chunk) : engineWork s = c.target - c.cursor + 9 := by
  simp [engineWork, hrun, hstage]

theorem engineWork_ackChunk (hstage : c.stage = .ackChunk) : engineWork s = c.target - c.cursor := by
  simp [engineWork, hrun, hstage]

/-- Before the acknowledgement, its 8 bytes and the step that starts it are left. -/
theorem eight_lt_engineWork (hstage : c.stage ≠ .ackChunk) : 8 < engineWork s := by
  cases hst : c.stage with
  | start => rw [engineWork_start hrun hst]; omega
  | chunk => rw [engineWork_chunk hrun hst]; omega
  | ackChunk => exact absurd hst hstage

/-- A running operation of an invariant state has work left: an acknowledgement still has bytes to send. -/
theorem engineWork_pos (hs : s.Inv) : 0 < engineWork s := by
  by_cases hstage : c.stage = .ackChunk
  · have hack := ackInRange_of_inv hs hrun
    rw [AckInRange, ctx_of_run hrun] at hack
    obtain ⟨hlt, -⟩ := hack hstage
    rw [engineWork_ackChunk hrun hstage]
    omega
  · exact Nat.zero_lt_of_lt (eight_lt_engineWork hrun hstage)

end Running

/-! ### Chunk loops -/

/-- A loop of context c that goes on past its cursor leaves less than w of work. -/
def GoesOnBelow (w : Nat) (c : Ctx) : Prop :=
  ∀ (k : Nat) (u : State), c.cursor < k → k < c.target →
    engineWork (u.continueWith { c with cursor := k }) < w

/-- What is left of an operation when its loop ends is less than w of work. -/
def EndsBelow (w : Nat) (fin : Nat → Stop → State → State) : Prop :=
  ∀ n stop u, engineWork (fin n stop u) < w

/-- The first loop fits the buffers, so it has less left than the first step that starts it. -/
theorem goesOnBelow_start {s : State} {c : Ctx} {n : Nat} (hrun : s.engine = .run c)
    (hstage : c.stage = .start) (hn : n ≤ s.cfg.bufSize) : GoesOnBelow (engineWork s) (c.loop .chunk n) := by
  intro k u hk hlt
  rw [engineWork_start hrun hstage]
  simp only [engineWork, continueWith_engine, Ctx.loop] at hlt ⊢
  omega

/-- Every byte that a loop moves is work done. -/
theorem goesOnBelow_later {s : State} {c : Ctx} (hrun : s.engine = .run c) (hstage : c.stage ≠ .start) :
    GoesOnBelow (engineWork s) c := by
  intro k u hk hlt
  cases hst : c.stage with
  | start => exact absurd hst hstage
  | chunk | ackChunk =>
    simp only [engineWork, continueWith_engine, hrun, hst]
    omega

section Loops
variable {w : Nat} {ep : Byte} {fin : Nat → Stop → State → State} {c : Ctx} {s t : State}
  (hend : EndsBelow w fin) (hgo : GoesOnBelow w c)
include hend hgo

/-- A write loop goes on only past the bytes of an answer that took some. -/
theorem engineWork_writeLoopStep {src : List Byte} (h : writeLoopStep ep src fin c s = .next t) :
    engineWork t < w := by
  rcases writeLoopStep_next h with ⟨-, rfl⟩ | ⟨-, a, s1, -, rfl⟩
  · exact hend _ _ _
  · rcases afterWrite_cases fin c a s1 with ⟨e, -, heq⟩ | ⟨-, heq⟩ | ⟨k, -, hk, hlt, heq⟩ | ⟨k, -, -, -, heq⟩ <;>
      rw [heq]
    · exact hend _ _ _
    · exact hend _ _ _
    · exact hgo _ _ (Nat.lt_add_of_pos_right hk) hlt
    · exact hend _ _ _

/-- A read loop goes on only past a whole chunk, which is at least one byte. -/
theorem engineWork_readLoopStep (hcfg : s.cfg.WellFormed) (h : readLoopStep ep fin c s = .next t) :
    engineWork t < w := by
  rcases readLoopStep_next h with ⟨-, rfl⟩ | ⟨hcursor, a, s1, -, rfl⟩
  · exact hend _ _ _
  · have hpos : 0 < chunkSize s c := by
      obtain ⟨⟨-, -, -, -, hchunk, -⟩, -⟩ := hcfg
      exact Nat.lt_min.mpr ⟨hchunk, Nat.sub_pos_of_lt hcursor⟩
    rcases afterRead_cases fin c (chunkSize s c) a s1 with
      ⟨e, -, heq⟩ | ⟨bs, -, -, heq⟩ | ⟨bs, -, hwhole, hlt, heq⟩ | ⟨bs, -, -, -, heq⟩ <;> rw [heq]
    · exact hend _ _ _
    · exact hend _ _ _
    · exact hgo _ _ (Nat.lt_add_of_pos_right (hpos.trans_le hwhole)) hlt
    · exact hend _ _ _

end Loops

/-! ### The ends of the loops -/

theorem endsBelow_writeDone {w : Nat} (hw : 0 < w) : EndsBelow w writeDone := fun _ stop _ =>
  (engineWork_endWith stop _).trans_lt hw

theorem endsBelow_readDone {w : Nat} (hw : 0 < w) : EndsBelow w readDone := fun _ stop _ =>
  (engineWork_endWith stop _).trans_lt hw

theorem engineWork_recvValidate (n : Nat) (f : Bool) (s : State) : engineWork (recvValidate n f s) = 0 := by
  rw [recvValidate_eq, engineWork_endWith]

theorem endsBelow_recvAckDone {w : Nat} (hw : 0 < w) : EndsBelow w recvAckDone := by
  intro sent stop u
  unfold recvAckDone
  split <;> exact (engineWork_recvValidate ..).trans_lt hw

/-- RECV's read loop leaves at most the 8 bytes of the acknowledgement (41_bulk_transport.md R149). -/
theorem endsBelow_recvReadDone {w : Nat} (hw : 8 < w) : EndsBelow w recvReadDone := by
  intro got stop u
  have hpos : 0 < w := Nat.zero_lt_of_lt hw
  rcases recvReadDone_cases got stop u with ⟨e, -, heq⟩ | ⟨-, -, -, heq⟩ | ⟨-, -, heq⟩ <;> rw [heq]
  · exact (engineWork_endWith (some e) _).trans_lt hpos
  · exact hw
  · exact (engineWork_recvValidate ..).trans_lt hpos

/-! ### Operations -/

section Operations
variable {s t : State} {c : Ctx} (hs : s.Inv) (hrun : s.engine = .run c)
include hs hrun

/-- An end of the operation uses up all that is left. -/
theorem engineWork_endWith_lt (e : Option ErrCode) (u : State) : engineWork (endWith e u) < engineWork s :=
  (engineWork_endWith e u).trans_lt (engineWork_pos hrun hs)

theorem engineWork_rangeError_lt (u : State) : engineWork (rangeError u) < engineWork s :=
  engineWork_endWith_lt hs hrun (some .range) (u.flag .rangeErr)

theorem engineWork_execBulkWrite (h : execBulkWrite s = .next t) : engineWork t < engineWork s := by
  have hend := endsBelow_writeDone (engineWork_pos hrun hs)
  rcases execBulkWrite_next h with ⟨-, -, rfl⟩ | ⟨hstage, hN, hloop⟩ | ⟨hstage, hloop⟩
  · exact engineWork_rangeError_lt hs hrun s
  all_goals rw [ctx_of_run hrun] at hstage hloop
  · exact engineWork_writeLoopStep hend (goesOnBelow_start hrun hstage hN) hloop
  · exact engineWork_writeLoopStep hend (goesOnBelow_later hrun hstage) hloop

theorem engineWork_execBulkRead (h : execBulkRead s = .next t) : engineWork t < engineWork s := by
  have hend := endsBelow_readDone (engineWork_pos hrun hs)
  rcases execBulkRead_next h with ⟨-, -, rfl⟩ | ⟨hstage, hN, hloop⟩ | ⟨hstage, hloop⟩
  · exact engineWork_rangeError_lt hs hrun s
  all_goals rw [ctx_of_run hrun] at hstage hloop
  · exact engineWork_readLoopStep hend (goesOnBelow_start hrun hstage hN) hs.cfg_ok hloop
  · exact engineWork_readLoopStep hend (goesOnBelow_later hrun hstage) hs.cfg_ok hloop

theorem engineWork_execSend (h : execSend s = .next t) : engineWork t < engineWork s := by
  have hend := endsBelow_writeDone (engineWork_pos hrun hs)
  rcases execSend_next h with ⟨-, -, rfl⟩ | ⟨hstage, hP, hloop⟩ | ⟨hstage, hloop⟩
  · exact engineWork_rangeError_lt hs hrun s
  all_goals rw [ctx_of_run hrun] at hstage hloop
  · exact engineWork_writeLoopStep hend (goesOnBelow_start hrun hstage (transmitLen_le hs.cfg_ok hP)) hloop
  · exact engineWork_writeLoopStep hend (goesOnBelow_later hrun hstage) hloop

theorem engineWork_execRecv (h : execRecv s = .next t) : engineWork t < engineWork s := by
  have hread (hstage : c.stage ≠ .ackChunk) := endsBelow_recvReadDone (eight_lt_engineWork hrun hstage)
  have hack := endsBelow_recvAckDone (engineWork_pos hrun hs)
  rcases execRecv_next h with ⟨hstage, hloop⟩ | ⟨hstage, hloop⟩ | ⟨hstage, hloop⟩ <;>
    rw [ctx_of_run hrun] at hstage hloop
  · exact engineWork_readLoopStep (hread (by simp [hstage]))
      (goesOnBelow_start hrun hstage (rxReadLen_le hs.cfg_ok)) hs.cfg_ok hloop
  · exact engineWork_readLoopStep (hread (by simp [hstage])) (goesOnBelow_later hrun (by simp [hstage]))
      hs.cfg_ok hloop
  · exact engineWork_writeLoopStep hack (goesOnBelow_later hrun (by simp [hstage])) hloop

/-- An engine step of a running operation ends it or moves bytes of its loop. -/
theorem engineWork_exec {i : Instr} (h : exec i s = .next t) : engineWork t < engineWork s := by
  have hrange := engineWork_rangeError_lt hs hrun s
  have hfinish (u : State) : engineWork (finish u) < engineWork s := engineWork_endWith_lt hs hrun none u
  cases i with
  | nop => obtain rfl := execNop_next h; exact hfinish s
  | crc => rcases execCrc_next h with ⟨-, rfl⟩ | ⟨-, rfl⟩ <;> [exact hrange; exact hfinish _]
  | swap => rcases execSwap_next h with ⟨-, rfl⟩ | ⟨-, rfl⟩ <;> [exact hrange; exact hfinish _]
  | encode => rcases execEncode_next h with ⟨-, rfl⟩ | ⟨-, rfl⟩ <;> [exact hrange; exact hfinish _]
  | decode =>
    rcases execDecode_next h with ⟨-, rfl⟩ | ⟨-, rfl⟩
    · exact hrange
    · exact engineWork_endWith_lt hs hrun _ _
  | bulkWrite => exact engineWork_execBulkWrite hs hrun h
  | bulkRead => exact engineWork_execBulkRead hs hrun h
  | send => exact engineWork_execSend hs hrun h
  | recv => exact engineWork_execRecv hs hrun h
  | guard => rcases execGuard_next h with ⟨-, rfl⟩ | ⟨-, rfl⟩ <;> [exact hrange; exact hfinish _]

end Operations

/-- Settles O50: a step that goes on has moved bytes, and every other step ends the operation, which had
work left, or starts RECV's 8-byte acknowledgement, which its earlier stages keep in reserve. -/
theorem engineStepsRunOut : Obligations.EngineStepsRunOut := by
  intro s t c hs hrun h
  rcases engineTurn_next h with ⟨hidle, -⟩ | ⟨_, _, -, -, hexec⟩ | ⟨_, _, -, -, rfl⟩
  · exact absurd (hrun.symm.trans hidle) nofun
  · exact engineWork_exec hs hrun hexec
  · exact engineWork_endWith_lt hs hrun (some .illegal) (s.flag .illegalOp)

end Sys2Proof.Machine
end
